-- ==== Sys2Proof/Word.lean ====
section
/-! DEFINITION. The word types of the WS-380: bytes, copy indices, line numbers and cartridge words. -/

namespace Sys2Proof

/-- One payload or copy byte. -/
abbrev Byte := BitVec 8

/-- A copy index: a count of copy items that runs modulo 65536 (00_scope.md, Units and Number Conventions). -/
abbrev CopyIndex := BitVec 16

/-- A line number, modulo 65536. -/
abbrev LineNumber := BitVec 16

/-- One word of the font cartridge. -/
abbrev CartWord := BitVec 16

/-- An arbitration word: level in bits 11-8, class in bits 7-4, sender in bits 3-0 (12.1). -/
abbrev ArbWord := BitVec 12

end Sys2Proof
end

