-- ==== Sys2Proof/Syntax.lean ====
section
/-! DEFINITION. The commands of the station: one constructor for each row of spec/opcode_table.json. The operands are
what comes from outside the part: pins, cartridge words and bus events. A command that stands for work the station
starts or ends by itself, and one that handles the frame at the head of the receive queue, has no operand: what it
works on is in the state. -/

namespace Sys2Proof

/-- How a send attempt ended on the line (R98, R106). -/
inductive AttemptOutcome where
  /-- The sender read a 0 where it sent a 1 in the arbitration word. -/
  | lost
  /-- After the arbitration word the sender read a bit it did not send. -/
  | broken
  /-- The frame was sent whole; `spoiled` says whether any other participant drove the spoil slot dominant. -/
  | whole (spoiled : Bool)
  deriving DecidableEq, Repr

/-- The station's steps (spec/opcode_table.json, spec/95_what_each_step_holds.md). -/
inductive Instr where
  /-- POWER_ON (R176). -/
  | powerOn
  /-- RESET_LINE_ASSERTED (R176). -/
  | resetLineAsserted
  /-- RESET_LINE_RELEASED (R175): `straps` is what the three strap pins read. -/
  | resetLineReleased (straps : BitVec 3)
  /-- CARTRIDGE_PRESENT_FALL (R54). -/
  | cartridgePresentFall
  /-- CARTRIDGE_PRESENT_RISE (R54). -/
  | cartridgePresentRise
  /-- CARTRIDGE_READ_COMPLETE (R40): `word` is the word that arrives for the read outstanding. -/
  | cartridgeReadComplete (word : CartWord)
  /-- FRAME_ATTEMPT_START (R105). -/
  | frameAttemptStart
  /-- FRAME_ATTEMPT_END (R106). -/
  | frameAttemptEnd (outcome : AttemptOutcome)
  /-- FRAME_RECEIVED (R99): a frame that another participant sent, with the check word read from the line and whether
  any participant other than this station spoiled it. -/
  | frameReceived (word : ArbWord) (payload : List Byte) (check : BitVec 16) (spoiled : Bool)
  /-- CLEAR_FRAME (R183). -/
  | clearFrame
  /-- COPY_FRAME (R2). -/
  | copyFrame
  /-- CUTTING_RESUMED (R36). -/
  | cuttingResumed
  /-- SHAPING_START (R57). -/
  | shapingStart
  /-- STORE_WAIT_GRANTED (R59). -/
  | storeWaitGranted
  /-- SHAPING_COMPLETE (R70). -/
  | shapingComplete
  /-- BOX_BUILD_START (R72). -/
  | boxBuildStart
  /-- BOX_BUILD_COMPLETE (R71). -/
  | boxBuildComplete
  /-- PENDING_REMAINDER_RECORD (R74). -/
  | pendingRemainderRecord
  /-- WAITING_FRAME_ENTERS (R104). -/
  | waitingFrameEnters
  /-- MEASURE_FRAME (R119). -/
  | measureFrame
  /-- DEFERRED_DECISION (R117). -/
  | deferredDecision
  /-- DEFERRED_COPY_GAP (R18). -/
  | deferredCopyGap
  /-- VERDICT_FRAME (R132). -/
  | verdictFrame
  /-- TRAP_REPORT (R162). -/
  | trapReport
  /-- MUSTER_FRAME (R182). -/
  | musterFrame
  /-- NOTICE_FRAME (R134). -/
  | noticeFrame
  /-- TAKEN_FRAME (R136). -/
  | takenFrame
  /-- HOLD_FRAME (R151). -/
  | holdFrame
  /-- RELEASE_FRAME (R151). -/
  | releaseFrame
  /-- PLACE_FRAME (R149). -/
  | placeFrame
  /-- RECALL_FRAME (R164). -/
  | recallFrame
  /-- KILL_FRAME (R167). -/
  | killFrame
  /-- KILL_END (R169). -/
  | killEnd
  /-- HELD_MUSTER_REQUEUED (R109). -/
  | heldMusterRequeued
  /-- PENDING_ABORT_NOTICE (R160). -/
  | pendingAbortNotice
  /-- UNASSIGNED_CLASS (R101). -/
  | unassignedClass
  /-- COVERAGE_TIMER_FIRST_END (R129). -/
  | coverageTimerFirstEnd
  /-- COVERAGE_TIMER_SECOND_END (R130). -/
  | coverageTimerSecondEnd
  /-- VERDICT_WAIT_EXPIRY (R135). -/
  | verdictWaitExpiry
  /-- LONG_HOLD_EXPIRY (R156). -/
  | longHoldExpiry
  deriving DecidableEq, Repr

end Sys2Proof
end

