-- ==== Sys2Proof/Config.lean ====
section
/-! DEFINITION. The free values: what the manual leaves open although the station goes on. None has a body,
so nothing can be proved of the value itself; each is applied to the counter `State.choices`, which the step that
reads it advances. -/

namespace Sys2Proof

/-- R58 and R40: when a shaping operation and a box build wait for glyph store room together, either may be granted
first and the requests they then make together may be served in either order. `true` serves the box build first. -/
opaque Config.boxFirst : Nat → Bool

/-- R159, R160: the start index of a line that a kill has yet to open, where a condition must name it. The manual
names "the line's start index", and the line has none yet. -/
opaque Config.unopenedStart : Nat → CopyIndex

end Sys2Proof
end

