-- ==== Sys2Proof/Machine/State.lean ====
section
/-! DEFINITION. The state of one WS-380 station, block by block (00_scope.md, Block Diagram), the reasons a step can
stop, and the machine right after reset. -/

namespace Sys2Proof.Machine

/-! ### Copy: items, window, decoder (chapter 1) -/

/-- A quad mode (R8, R88); it is also a line's setting mode. -/
inductive QuadMode where
  | justify | flushStart | flushEnd | centre
  deriving DecidableEq, Repr

/-- Where a line's stretch goes first (R8, R89). -/
inductive Spread where
  | spaces | elongate
  deriving DecidableEq, Repr

/-- The values that govern a line (R11): in the base record, the values in force before the oldest held item; in a line
record, the line's parameters, with `base` the paragraph's base level. -/
structure LineParams where
  measure  : Nat
  leading  : Nat
  ordinary : QuadMode
  last     : QuadMode
  spread   : Spread
  base     : Nat
  deriving DecidableEq, Repr

/-- The starting values of R11. -/
def startingParams : LineParams := ⟨1200, 120, .justify, .flushStart, .spaces, 0⟩

/-- Kind and value of a copy item (R4 to R8, R10), the value as recorded, not as sent. -/
inductive ItemBody where
  | character (code : Nat)
  | page (number : Nat)
  | para
  | space
  | thin (units : Nat)
  | softHyphen
  | ltrEmbed
  | rtlEmbed
  | pop
  | size (q : Nat)
  | set (q : Nat)
  | font (slot : Nat)
  | measure (steps : Nat)
  | lead (steps : Nat)
  | quad (ordinary last : QuadMode)
  | spread (value : Spread)
  | base (level : Nat)
  deriving DecidableEq, Repr

/-- The owner of a character (R21). -/
inductive Owner where
  | own (claim : Nat)
  | foreign
  | unclaimed
  deriving DecidableEq, Repr

/-- Level and parameters in force, stamped on characters, spaces and thins (R10, R23). `slot` none is the unset slot. -/
structure Stamp where
  level   : Nat
  size    : Nat
  setSize : Nat
  slot    : Option Nat
  deriving DecidableEq, Repr

/-- One copy gap noted on an item that starts a paragraph (R18): the gap point, which the NOTICE reports, and the sender of
the COPY frame. -/
structure GapNote where
  point  : CopyIndex
  sender : Nat
  deriving DecidableEq, Repr

/-- A copy item record (R10). Its copy index is its place in the window; its gap mark is set when `gaps` is not empty. -/
structure Item where
  body   : ItemBody
  owner  : Option Owner
  stamp  : Option Stamp
  killed : Bool
  gaps   : List GapNote
  deriving DecidableEq, Repr

/-- The copy window (R12): the item at place `k` has copy index `oldest + k`. `base` is the base record (R11). -/
structure Window where
  oldest : CopyIndex
  items  : List Item
  base   : LineParams
  deriving DecidableEq, Repr

/-- The copy decoder (R1). The next copy index is the window's next index (R12) and is not stored twice. `markNext` is
"mark next item" with the gaps it stands for; empty is no. -/
structure Decoder where
  pageBase : Nat
  lead     : Option Byte
  operand  : Option Byte
  lastSeq  : Option (BitVec 16)
  markNext : List GapNote
  deriving DecidableEq, Repr

/-! ### Segment splitter (chapter 2) -/

/-- Script class (R20). -/
inductive ScriptClass where
  | l | lr | rn | rj
  deriving DecidableEq, Repr

/-- One claim (R20). -/
structure Claim where
  first : Nat
  last  : Nat
  cls   : ScriptClass
  slot  : Nat
  deriving DecidableEq, Repr

/-- The kind of a push on the embedding stack (R22). -/
inductive PushKind where
  | ltr | rtl
  deriving DecidableEq, Repr

/-- An embedding stack entry (R22). -/
structure StackEntry where
  level : Nat
  kind  : PushKind
  page  : Nat
  deriving DecidableEq, Repr

/-- The segment splitter (R20, R22): claim table and fallback flag, stamping state, cutting state. The stack's top is the
head of the list. The open segment is the own segment record in state CUTTING. -/
structure Splitter where
  claims       : List Claim
  fallback     : Bool
  level        : Nat
  startPending : Bool
  baseInForce  : Nat
  paraBase     : Nat
  stack        : List StackEntry
  overflow     : Nat
  size         : Nat
  setSize      : Nat
  slot         : Option Nat
  cutPoint     : CopyIndex
  cutting      : Bool
  deriving DecidableEq, Repr

/-! ### Cartridge port (chapter 3) -/

/-- Who reads the cartridge (R40). -/
inductive Requester where
  | profile | shaper | box
  deriving DecidableEq, Repr

/-- A waiting read request (R39). -/
structure ReadRequest where
  who  : Requester
  addr : Nat
  deriving DecidableEq, Repr

/-- The read outstanding (R39); an abandoned one has its word discarded (R40). -/
structure OutstandingRead where
  who       : Requester
  addr      : Nat
  abandoned : Bool
  deriving DecidableEq, Repr

/-- The cartridge port (R39). `profileWords` are the words the profile reader holds while its read is in flight (R177). -/
structure CartridgePort where
  profileCopy  : List CartWord
  directory    : List Nat
  size         : Nat
  usable       : List Bool
  outstanding  : Option OutstandingRead
  waiting      : List ReadRequest
  profileWords : Option (List CartWord)
  deriving DecidableEq, Repr

/-! ### Shaper and glyph store (chapter 4) -/

/-- A glyph record (R60). -/
structure GlyphRecord where
  glyph   : Nat
  slot    : Nat
  size    : Nat
  setSize : Nat
  advance : Nat
  dx      : Int
  dy      : Int
  cluster : CopyIndex
  mark    : Bool
  missing : Bool
  hyphen  : Bool
  elong   : Bool
  deriving DecidableEq, Repr

/-- The kind of a break opportunity inside a segment (R68). -/
inductive OppKind where
  | softHyphen | breakAfter
  deriving DecidableEq, Repr

/-- The hyphen glyph of a SOFT HYPHEN opportunity (R68), with its width in units and the index of the SOFT HYPHEN item. -/
structure HyphenGlyph where
  glyph : Nat
  width : Nat
  index : CopyIndex
  deriving DecidableEq, Repr

/-- A recorded break opportunity of an own segment (R68). `clearAt` is the place of the elongation point flag that a cut
here clears (R73), if any. -/
structure Opportunity where
  kind    : OppKind
  split   : Nat
  offset  : Nat
  points  : Nat
  hyphen  : Option HyphenGlyph
  clearAt : Option Nat
  width   : Nat
  deriving DecidableEq, Repr

/-- The state of an own segment record (R56). -/
inductive SegState where
  | cutting | waiting | storeWait | shaping | ready
  deriving DecidableEq, Repr

/-- The split record of a segment cut by a break (R56, R73). -/
structure SplitRecord where
  endIdx    : CopyIndex
  itemCount : Nat
  charCount : Nat
  continues : Bool
  line      : LineNumber
  deriving DecidableEq, Repr

/-- An own segment record (R35, R56). Its glyph span is held as the glyph records themselves. `cutLine` is the line whose
decision cut it; it outlives the split record that a kill clears (R77, R78). `elongGlyph` is the elongation glyph of the
slot of the first glyph record (R144). -/
structure SegRecord where
  start          : CopyIndex
  endIdx         : CopyIndex
  charCount      : Nat
  itemCount      : Nat
  claim          : Nat
  cls            : ScriptClass
  level          : Nat
  continues      : Bool
  state          : SegState
  opps           : List Opportunity
  elongCount     : Nat
  glyphs         : List GlyphRecord
  width          : Nat
  elongWidth     : Nat
  elongGlyph     : Nat
  measureQueued  : Bool
  missesReported : Bool
  split          : Option SplitRecord
  cutLine        : Option LineNumber
  origin         : Option CopyIndex
  deriving DecidableEq, Repr

/-- The state of a box segment record (R71, R72). -/
inductive BoxState where
  | storeWait | building | ready
  deriving DecidableEq, Repr

/-- A box segment record (R72). -/
structure BoxRecord where
  start         : CopyIndex
  itemCount     : Nat
  charCount     : Nat
  level         : Nat
  continues     : Bool
  width         : Nat
  glyphs        : List GlyphRecord
  measureQueued : Bool
  state         : BoxState
  deriving DecidableEq, Repr

/-- A box segment of an uncovered span whose build has not started (R72, R129). -/
structure BoxPlan where
  start     : CopyIndex
  itemCount : Nat
  charCount : Nat
  level     : Nat
  continues : Bool
  deriving DecidableEq, Repr

/-- An operation in flight: the segment it works on, the glyph records it has reserved (R58) and the cartridge words it
has received since it started or restarted. How far it has come follows from those words. -/
structure Operation where
  start    : CopyIndex
  reserved : Nat
  words    : List CartWord
  deriving DecidableEq, Repr

/-- The shaper: own segment records in copy order, the pending remainder (R74), the shaping operation, box segment
records, the box segments still to build, and the box build. The glyph store is the glyph records of the segments. -/
structure Shaper where
  records   : List SegRecord
  remainder : Option SegRecord
  op        : Option Operation
  boxes     : List BoxRecord
  plan      : List BoxPlan
  boxOp     : Option Operation
  deriving DecidableEq, Repr

/-! ### Measure unit (chapter 5) -/

/-- The measure unit (R80), with the profile's space units and elongation multiple (R85, R86, R179). -/
structure MeasureUnit where
  segment   : Option CopyIndex
  numerator : Nat
  measured  : Nat
  natural   : Nat
  minimum   : Nat
  maximum   : Nat
  multiple  : Nat
  deriving DecidableEq, Repr

/-! ### Bus port (chapter 6) -/

/-- A frame as a queue holds it (R97); the payload length is the length of the payload. -/
structure Frame where
  word    : ArbWord
  payload : List Byte
  deriving DecidableEq, Repr

/-- A frame in the transmit queue (R97, R103). `inFlight` marks the frame in flight; `removed` is a removal noted on it
(R107). -/
structure TxFrame where
  frame    : Frame
  urgent   : Bool
  attempts : Nat
  heldBack : Bool
  inFlight : Bool
  removed  : Bool
  deriving DecidableEq, Repr

/-- Who hands frames to the bus port (R104, R158). -/
inductive Producer where
  | shaper | boxBuilder | tally | placement | notice | recallKill
  deriving DecidableEq, Repr

/-- A frame handed over when no slot was free (R104). -/
structure WaitingFrame where
  producer : Producer
  frame    : Frame
  deriving DecidableEq, Repr

/-- The class levels the profile gives (R96). -/
structure Levels where
  ofRecall  : Nat
  ofKill    : Nat
  ofVerdict : Nat
  ofMeasure : Nat
  ofPlace   : Nat
  ofNotice  : Nat
  ofMuster  : Nat
  deriving DecidableEq, Repr

/-- A held MUSTER (R109), and the number of the line that was open when it was dropped. -/
structure HeldMuster where
  frame : Frame
  since : Option LineNumber
  deriving DecidableEq, Repr

/-- The bus port (R97). The transmit queue stands in the order of R103; waiting frames stand in the order they were made. -/
structure BusPort where
  station           : Nat
  levels            : Option Levels
  rx                : List Frame
  tx                : List TxFrame
  waiting           : List WaitingFrame
  clearPending      : Bool
  heldMuster        : Option HeldMuster
  withdrawalPending : Bool
  deriving DecidableEq, Repr

/-! ### Tally unit (chapter 7) -/

/-- A break opportunity as a MEASURE frame carries it (R70, R118). -/
structure TallyOpp where
  kind   : OppKind
  offset : Nat
  points : Nat
  width  : Nat
  deriving DecidableEq, Repr

/-- A segment item of a line tally (R118): the figures it arrived with, and the cut a decision made (R127). -/
structure SegItem where
  sender     : Nat
  start      : CopyIndex
  count      : Nat
  level      : Nat
  width      : Nat
  opps       : List TallyOpp
  elongCount : Nat
  elongWidth : Nat
  continues  : Bool
  cut        : Option TallyOpp
  deriving DecidableEq, Repr

/-- An item of a line tally (R118). -/
inductive TallyItem where
  | segment (item : SegItem)
  | space (index : CopyIndex) (level natural minimum maximum : Nat)
  | thin (index : CopyIndex) (level width : Nat)
  deriving DecidableEq, Repr

/-- A break opportunity the scan has recorded (R124): at the SPACE `place`, or inside the segment that starts at `place`. -/
structure RecordedOpp where
  place    : CopyIndex
  inner    : Option TallyOpp
  reach    : Nat
  shrinkTo : Nat
  deriving DecidableEq, Repr

/-- Why the scan stands where it stands (R123, R125). -/
inductive ScanStop where
  /-- The item at the scan point is not held. -/
  | copy
  /-- The scan point is the line's gap. -/
  | gap
  /-- The scan has reached PARA. -/
  | para
  /-- The line is overfull and decidable, and its decision does not wait. -/
  | beyond
  deriving DecidableEq, Repr

/-- The coverage scan of a line (R115, R123, R124). -/
structure Scan where
  point  : CopyIndex
  width  : Nat
  shrink : Nat
  opps   : List RecordedOpp
  stop   : ScanStop
  deriving DecidableEq, Repr

/-- The five figures on which verdicts are compared (R133). -/
structure Figures where
  start   : CopyIndex
  endIdx  : CopyIndex
  natural : Nat
  spaces  : Nat
  points  : Nat
  deriving DecidableEq, Repr

/-- A verdict seen (R115, R132). -/
structure VerdictSeen where
  sender  : Nat
  gen     : Nat
  figures : Figures
  deriving DecidableEq, Repr

/-- The break kind of a decision (R126). -/
inductive BreakKind where
  | space | hyphen | breakAfter | paragraph | overset
  deriving DecidableEq, Repr

/-- The setting of a line (R88): `widths` are the items' set widths and `shares` the elongation of each item's points, both
in the order of the line's items. `looseItem` is the SPACE set above its maximum (R90); a loose line with no SPACE has none, and
its LOOSE LINE names the line's start index (R91, R115). -/
structure Setting where
  natural   : Nat
  slack     : Int
  spaces    : Nat
  points    : Nat
  quad      : QuadMode
  mode      : QuadMode
  widths    : List Nat
  shares    : List (List Nat)
  setWidth  : Nat
  offset    : Nat
  overhang  : Nat
  loose     : Bool
  looseItem : Option CopyIndex
  deriving DecidableEq, Repr

/-- A line's own decision (R115, R126). -/
structure Decision where
  kind    : BreakKind
  setting : Setting
  deriving DecidableEq, Repr

/-- The state of a line record (R115). -/
inductive LineState where
  | opened | decided | sent
  deriving DecidableEq, Repr

/-- A line record (R115). `inherited` is the base level of the line before, or none for a paragraph's first line (R116);
`gapChecked` says the gap mark check of R116 has been made and `fullRaised` that TALLY FULL has been raised in this
generation (R122). -/
structure LineRecord where
  number     : LineNumber
  gen        : Nat
  state      : LineState
  start      : CopyIndex
  endIdx     : Option CopyIndex
  params     : Option LineParams
  inherited  : Option Nat
  tally      : List TallyItem
  scan       : Scan
  verdicts   : List VerdictSeen
  decision   : Option Decision
  ownVerdict : Bool
  placed     : Bool
  lastOfPara : Bool
  overset    : Bool
  loose      : Bool
  gapChecked : Bool
  fullRaised : Bool
  deriving DecidableEq, Repr

/-- The taken summary (R114). -/
structure TakenSummary where
  number  : LineNumber
  gen     : Nat
  figures : Figures
  deriving DecidableEq, Repr

/-- The stage of the coverage timer (R128). -/
inductive CoverageStage where
  | idle | first | second | expired
  deriving DecidableEq, Repr

/-- The verdict-wait timer (R135): idle when no line is watched. -/
structure VerdictWait where
  watched : Option LineNumber
  next    : Option LineNumber
  deriving DecidableEq, Repr

/-- The tally unit (R114), with the fence (R158, R166). Line records stand in line number order, the open line last. -/
structure TallyUnit where
  lines       : List LineRecord
  taken       : Option TakenSummary
  roster      : List Nat
  coverage    : CoverageStage
  verdictWait : VerdictWait
  fence       : Option LineNumber
  deriving DecidableEq, Repr

/-! ### Placement unit (chapter 8) -/

/-- How a station behaves while held (R138). -/
inductive HoldResponse where
  | atFrame | atLineEnd | replaceLine
  deriving DecidableEq, Repr

/-- An item of a visual list (R138, R141): its left edge, its set width, the shares of its elongation points, and whether
this station places it (R139, R147). -/
structure VisualItem where
  item   : TallyItem
  left   : Nat
  width  : Nat
  shares : List Nat
  placed : Bool
  deriving DecidableEq, Repr

/-- The placement state of a line in hand (R138). `marks` are the carried marks of the line's entries (R149). -/
structure PlaceState where
  number     : LineNumber
  gen        : Nat
  visual     : List VisualItem
  entryCount : Nat
  nextEntry  : Nat
  toReplace  : Bool
  carried    : Bool
  marks      : List Bool
  deriving DecidableEq, Repr

/-- The long-hold timer (R138, R156). -/
structure LongHold where
  running : Bool
  raised  : Bool
  deriving DecidableEq, Repr

/-- The placement unit (R138), with the profile's hold response. `unreported` holds the external senders of the LONG HOLD traps
raised against the line a kill has yet to open, whose item is not known until it opens (R156, R162). -/
structure PlacementUnit where
  response   : HoldResponse
  held       : Bool
  holder     : Option Nat
  finishing  : Option LineNumber
  longHold   : LongHold
  lines      : List PlaceState
  unreported : List (Option Nat)
  deriving DecidableEq, Repr

/-! ### Condition unit (chapter 9) -/

/-- The conditions of section 9.2. -/
inductive CondCode where
  | glyphMissing | overset | looseLine | embedOverflow | claimClash | longHold | stationLost | lateRecall
  | lateDivergence | cartridgeAddress | frameDropped | coverageTimeout | divergence | tallyFull | glyphStoreFull
  | copyGap | twinStation | cartridgeRemoved | cartridgeUnusable | linkLost | escalation
  deriving DecidableEq, Repr

/-- The station state (R158, R175). -/
inductive StationState where
  | reset | profiling | refused | listening | active | withdrawn
  deriving DecidableEq, Repr

/-- A trap in the report list (R162). -/
structure Trap where
  code : CondCode
  item : CopyIndex
  ext  : Option Nat
  deriving DecidableEq, Repr

/-- The kill in progress (R158); `para` is its PARA once that is held. -/
structure KillInProgress where
  line  : LineNumber
  start : CopyIndex
  next  : LineNumber
  para  : Option CopyIndex
  deriving DecidableEq, Repr

/-- The fields of a NOTICE frame (R160). -/
structure Notice where
  code   : CondCode
  line   : LineNumber
  item   : CopyIndex
  resume : CopyIndex
  ext    : Option Nat
  cause  : Nat
  deriving DecidableEq, Repr

/-- A pending abort notice (R160): its resume index is the item after the first PARA at or after `after`. -/
structure PendingNotice where
  notice : Notice
  after  : CopyIndex
  deriving DecidableEq, Repr

/-- The condition unit (R158). -/
structure ConditionUnit where
  state      : StationState
  kill       : Option KillInProgress
  killPeriod : Option LineNumber
  reports    : List Trap
  notices    : List PendingNotice
  deriving DecidableEq, Repr

/-- The input pins whose level the station acts on (00_scope.md, Signals): the reset line, active or not, and
cartridge-present. The straps are operands of the command that samples them. -/
structure Pins where
  resetLine        : Bool
  cartridgePresent : Bool
  deriving DecidableEq, Repr

/-! ### The station -/

/-- The whole station, and the queue of commands waiting. `choices` is the model's own counter for free values. -/
structure State where
  pins      : Pins
  port      : BusPort
  decoder   : Decoder
  window    : Window
  splitter  : Splitter
  cartridge : CartridgePort
  shaper    : Shaper
  measure   : MeasureUnit
  tally     : TallyUnit
  placement : PlacementUnit
  condition : ConditionUnit
  choices   : Nat
  pending   : List Instr
  deriving DecidableEq, Repr

/-- No step of this station ends in a fault: every event the manual describes goes on to a next state, so there is no reason
to name. That is safe: a fault that does not exist hides no behaviour. -/
inductive Fault where
  deriving DecidableEq, Repr

/-- Why a command has no meaning. -/
inductive Refusal where
  /-- A command with no meaning yet; raised only by an arm of `exec`. Safe: the step answers no state. -/
  | notModelled (mnemonic : String)
  /-- A FRAME_RECEIVED whose payload is longer than the six-bit length field can say (R185): no frame on the bus is such a
  frame. Raised by `execFrameReceived`. Safe: no such event exists. -/
  | payloadTooLong
  deriving DecidableEq, Repr

/-! ### Reset values -/

/-- R11, R12. -/
def Window.empty : Window := ⟨0, [], startingParams⟩

/-- R1. -/
def Decoder.initial : Decoder := ⟨0, none, none, none, []⟩

/-- R22, R176: stamping and cutting state, with the claim table and fallback flag given. -/
def Splitter.initial (claims : List Claim) (fallback : Bool) (cutting : Bool) : Splitter :=
  ⟨claims, fallback, 0, true, 0, 0, [], 0, 40, 40, none, 0, cutting⟩

/-- All slots usable (R39). -/
def allUsable : List Bool := List.replicate 16 true

/-- R39. -/
def CartridgePort.initial : CartridgePort := ⟨[], [], 0, allUsable, none, [], none⟩

/-- R56, R58, R79. -/
def Shaper.initial : Shaper := ⟨[], none, none, [], [], none⟩

/-- R80; no space units and no multiple before a profile is read. -/
def MeasureUnit.initial : MeasureUnit := ⟨none, 0, 0, 0, 0, 0, 0⟩

/-- R97. -/
def BusPort.initial : BusPort := ⟨0, none, [], [], [], false, none, false⟩

/-- R114. -/
def TallyUnit.initial : TallyUnit := ⟨[], none, [], .idle, ⟨none, none⟩, none⟩

/-- R138, with the hold response given. -/
def PlacementUnit.initial (response : HoldResponse) : PlacementUnit :=
  ⟨response, false, none, none, ⟨false, false⟩, [], []⟩

/-- R158, with the station state given. -/
def ConditionUnit.initial (state : StationState) : ConditionUnit := ⟨state, none, none, [], []⟩

/-- The machine right after reset (R176): every block at its power-on values, in RESET, nothing waiting. The pins are read
with the reset line inactive and a cartridge seated, and the fallback flag is clear before a profile is read (DESIGN CHOICE, log
entry 1). -/
def State.reset : State where
  pins      := ⟨false, true⟩
  port      := BusPort.initial
  decoder   := Decoder.initial
  window    := Window.empty
  splitter  := Splitter.initial [] false false
  cartridge := CartridgePort.initial
  shaper    := Shaper.initial
  measure   := MeasureUnit.initial
  tally     := TallyUnit.initial
  placement := PlacementUnit.initial .atFrame
  condition := ConditionUnit.initial .reset
  choices   := 0
  pending   := []

end Sys2Proof.Machine
end

