-- ==== Sys2Proof/Machine/Ops.lean ====
section
/-! DEFINITION. The named operations every block shares: comparison of indices and line numbers, the copy window, frame
headers, and one replacing operation for each block of the state. -/

namespace Sys2Proof.Machine

/-! ### Replacing one block of the state -/

def State.withPins (s : State) (x : Pins) : State := { s with pins := x }
def State.withPort (s : State) (x : BusPort) : State := { s with port := x }
def State.withDecoder (s : State) (x : Decoder) : State := { s with decoder := x }
def State.withWindow (s : State) (x : Window) : State := { s with window := x }
def State.withSplitter (s : State) (x : Splitter) : State := { s with splitter := x }
def State.withCartridge (s : State) (x : CartridgePort) : State := { s with cartridge := x }
def State.withShaper (s : State) (x : Shaper) : State := { s with shaper := x }
def State.withMeasure (s : State) (x : MeasureUnit) : State := { s with measure := x }
def State.withTally (s : State) (x : TallyUnit) : State := { s with tally := x }
def State.withPlacement (s : State) (x : PlacementUnit) : State := { s with placement := x }
def State.withCondition (s : State) (x : ConditionUnit) : State := { s with condition := x }
def State.withChoices (s : State) (x : Nat) : State := { s with choices := x }
def State.withPending (s : State) (x : List Instr) : State := { s with pending := x }

/-! ### Indices and line numbers -/

/-- How far `b` lies after `a`, modulo 65536. -/
def distance (a b : BitVec 16) : Nat := (b - a).toNat

/-- `i` is `s` or lies after it, in the half-circle comparison that R12 gives for copy indices and R114 for line numbers. -/
def atOrAfter (i s : BitVec 16) : Bool := distance s i < 32768

/-- R114: line number `m` is after, or ahead of, line number `r`. -/
def lineAhead (m r : LineNumber) : Bool := 1 ≤ distance r m && distance r m < 32768

/-- R114: line number `m` is before, or behind, line number `r`. -/
def lineBehind (m r : LineNumber) : Bool := 32768 ≤ distance r m

/-- `i` lies in the span from `start` to the index before `stop` (R159). -/
def inSpan (i start stop : CopyIndex) : Bool := distance start i < distance start stop

/-! ### The copy window (1.3) -/

/-- The most items the window holds (R12). -/
def windowSize : Nat := 2048

/-- The most items one COPY frame completes (R2). -/
def frameItems : Nat := 60

def Window.count (w : Window) : Nat := w.items.length

/-- The next index (R12), always the decoder's next copy index (R1). -/
def Window.next (w : Window) : CopyIndex := w.oldest + BitVec.ofNat 16 w.count

/-- R12: an index is held when its distance from the oldest index is less than the count. -/
def Window.holds (w : Window) (i : CopyIndex) : Bool := distance w.oldest i < w.count

/-- R12: an index that is not held is ahead when it lies less than 32768 from the next index, and behind otherwise. -/
def Window.behind (w : Window) (i : CopyIndex) : Bool := !w.holds i && !atOrAfter i w.next

/-- The item at a held index. -/
def Window.item? (w : Window) (i : CopyIndex) : Option Item := w.items[distance w.oldest i]?

/-- R16: the window's free count. -/
def Window.free (w : Window) : Nat := windowSize - w.count

/-- R11: what a leaving item writes into the base record. -/
def ItemBody.writeBase (b : ItemBody) (r : LineParams) : LineParams :=
  match b with
  | .measure m => { r with measure := m }
  | .lead n => { r with leading := n }
  | .quad o l => { r with ordinary := o, last := l }
  | .spread v => { r with spread := v }
  | .base v => { r with base := v }
  | .character _ | .page _ | .para | .space | .thin _ | .softHyphen | .ltrEmbed | .rtlEmbed | .pop
  | .size _ | .set _ | .font _ => r

/-- R14: the oldest item leaves. -/
def Window.leave (w : Window) : Window :=
  match w.items with
  | [] => w
  | it :: rest => ⟨w.oldest + 1, rest, it.body.writeBase w.base⟩

/-- The `n` oldest items leave. -/
def Window.leaveN : Nat → Window → Window
  | 0, w => w
  | n + 1, w => Window.leaveN n w.leave

/-- R14: while the oldest item is killed, it too leaves. -/
def purgeItems : List Item → CopyIndex → LineParams → Window
  | [], oldest, base => ⟨oldest, [], base⟩
  | it :: rest, oldest, base =>
    if it.killed then purgeItems rest (oldest + 1) (it.body.writeBase base) else ⟨oldest, it :: rest, base⟩

def Window.purge (w : Window) : Window := purgeItems w.items w.oldest w.base

/-- R14, TAKEN: every held item before `e` leaves, then killed items at the old end. None leaves when `e` is behind or the
oldest index. -/
def Window.leaveBefore (w : Window) (e : CopyIndex) : Window :=
  if 0 < distance w.oldest e ∧ distance w.oldest e ≤ w.count then
    (Window.leaveN (distance w.oldest e) w).purge
  else w

/-- R13: an item is placed at the next index. -/
def Window.add (w : Window) (it : Item) : Window := { w with items := w.items ++ [it] }

/-- Items with their indices, the first at `i`. -/
def enumItems : CopyIndex → List Item → List (CopyIndex × Item)
  | _, [] => []
  | i, it :: rest => (i, it) :: enumItems (i + 1) rest

/-- The held items from index `i` on, each with its index. -/
def Window.itemsFrom (w : Window) (i : CopyIndex) : List (CopyIndex × Item) :=
  if w.holds i then enumItems i (w.items.drop (distance w.oldest i)) else []

/-- The held items from `i` up to, not including, `e`, each with its index. -/
def Window.itemsBetween (w : Window) (i e : CopyIndex) : List (CopyIndex × Item) :=
  (w.itemsFrom i).take (distance i e)

/-- The first held PARA at or after `i`; an index that has left the window is sought from the oldest item. -/
def Window.para? (w : Window) (i : CopyIndex) : Option CopyIndex :=
  ((w.itemsFrom (if w.behind i then w.oldest else i)).find? (fun p => p.2.body == .para)).map (·.1)

/-- The newest held PARA: the anchor of R19. -/
def Window.anchor? (w : Window) : Option CopyIndex :=
  ((enumItems w.oldest w.items).reverse.find? (fun p => p.2.body == .para)).map (·.1)

/-- R11: the setting controls. -/
def ItemBody.isSetting : ItemBody → Bool
  | .page _ | .size _ | .set _ | .font _ | .measure _ | .lead _ | .quad _ _ | .spread _ | .base _ => true
  | .character _ | .para | .space | .thin _ | .softHyphen | .ltrEmbed | .rtlEmbed | .pop => false

/-- The direction controls (R6). -/
def ItemBody.isDirection : ItemBody → Bool
  | .ltrEmbed | .rtlEmbed | .pop => true
  | .character _ | .page _ | .para | .space | .thin _ | .softHyphen | .size _ | .set _ | .font _
  | .measure _ | .lead _ | .quad _ _ | .spread _ | .base _ => false

/-- R11: an item that cannot be a governing item. -/
def ItemBody.beforeGoverning : ItemBody → Bool
  | .space | .thin _ => true
  | b => b.isSetting

/-- R11: the governing item of a line that starts at `start`, if it is held. -/
def Window.governing? (w : Window) (start : CopyIndex) : Option CopyIndex :=
  ((w.itemsFrom start).find? (fun p => !p.2.body.beforeGoverning)).map (·.1)

/-- R11: the values in force at the held index `i`. -/
def Window.inForce (w : Window) (i : CopyIndex) : LineParams :=
  (w.items.take (distance w.oldest i)).foldl (fun r it => it.body.writeBase r) w.base

/-- Every held item is rewritten, given its index. -/
def Window.rewrite (w : Window) (f : CopyIndex → Item → Item) : Window :=
  { w with items := (enumItems w.oldest w.items).map (fun p => f p.1 p.2) }

/-- R15, R170: the items from `start` to the PARA (to the newest when there is none) become killed; when this kill replaces
one that began at `old`, items from there on that lie after the PARA are no longer killed. -/
def Window.markKilled (w : Window) (start : CopyIndex) (para : Option CopyIndex) (old : Option CopyIndex) : Window :=
  w.rewrite fun i it =>
    if atOrAfter i start then
      match para with
      | none => { it with killed := true }
      | some p =>
        if atOrAfter p i then { it with killed := true }
        else if old.any (atOrAfter i) then { it with killed := false } else it
    else it

/-! ### Frame headers (R95, R96) -/

/-- The classes of R96. -/
inductive FrameClass where
  | clear | lineRecall | lineKill | hold | release | taken | verdict | measure | place | copy | notice | muster
  | unassigned
  deriving DecidableEq, Repr

/-- The class a class code names (R96). -/
def FrameClass.ofCode : Nat → FrameClass
  | 0 => .clear
  | 1 => .lineRecall
  | 2 => .lineKill
  | 3 => .hold
  | 4 => .release
  | 5 => .taken
  | 6 => .verdict
  | 7 => .measure
  | 8 => .place
  | 9 => .copy
  | 10 => .notice
  | 11 => .muster
  | _ => .unassigned

/-- The class code of a class (R96). -/
def FrameClass.code : FrameClass → Nat
  | .clear => 0
  | .lineRecall => 1
  | .lineKill => 2
  | .hold => 3
  | .release => 4
  | .taken => 5
  | .verdict => 6
  | .measure => 7
  | .place => 8
  | .copy => 9
  | .notice => 10
  | .muster => 11
  | .unassigned => 12

/-- The class an arbitration word names, from bits 7-4 (12.1). -/
def wordClass (w : ArbWord) : FrameClass := FrameClass.ofCode (w.toNat / 16 % 16)

/-- The sender an arbitration word names, from bits 3-0 (12.1). -/
def wordSender (w : ArbWord) : Nat := w.toNat % 16

def Frame.cls (f : Frame) : FrameClass := wordClass f.word

def Frame.sender (f : Frame) : Nat := wordSender f.word

def Frame.isClear (f : Frame) : Bool := f.cls == .clear

/-- R95: level × 256 + class × 16 + sender number, each of four bits. -/
def arbWord (level : Nat) (c : FrameClass) (sender : Nat) : ArbWord :=
  BitVec.ofNat 12 (level % 16 * 256 + c.code * 16 + sender % 16)

/-! ### Station state -/

/-- ACTIVE with no withdrawal pending: the station's blocks do their work (R57, R159, R172). -/
def State.working (s : State) : Bool := s.condition.state == .active && !s.port.withdrawalPending

/-- R175: the ready lamp is lit while the station is ACTIVE and no withdrawal is pending. -/
def State.readyLamp (s : State) : Bool := s.working

/-- COPY frames in the receive queue (R16, R99). -/
def BusPort.copyFrames (p : BusPort) : Nat := p.rx.countP (fun f => f.cls == .copy)

/-- R16: what the window must be able to hold for the COPY frames received. -/
def State.copyReserve (s : State) : Nat := frameItems * s.port.copyFrames

/-! ### Line records -/

/-- The open line (R114). -/
def TallyUnit.openLine? (t : TallyUnit) : Option LineRecord := t.lines.find? (fun r => r.state == .opened)

/-- The lines in hand (R114), in line number order. -/
def TallyUnit.inHand (t : TallyUnit) : List LineRecord := t.lines.filter (fun r => r.state != .opened)

/-- The record of a line number. -/
def TallyUnit.line? (t : TallyUnit) (n : LineNumber) : Option LineRecord := t.lines.find? (fun r => r.number == n)

/-- The record of line `n` is rewritten. -/
def TallyUnit.mapLine (t : TallyUnit) (n : LineNumber) (f : LineRecord → LineRecord) : TallyUnit :=
  { t with lines := t.lines.map (fun r => if r.number == n then f r else r) }

/-- The first element of a list that `p` names is rewritten. -/
def changeFirst {α : Type} (p : α → Bool) (f : α → α) : List α → List α
  | [] => []
  | x :: rest => if p x then f x :: rest else x :: changeFirst p f rest

/-- The record `r` is rewritten. -/
def TallyUnit.changeLine (t : TallyUnit) (r : LineRecord) (f : LineRecord → LineRecord) : TallyUnit :=
  { t with lines := changeFirst (fun x => x == r) f t.lines }

/-- The open line's record gives way to `d`. -/
def TallyUnit.withOpen (t : TallyUnit) (d : LineRecord) : TallyUnit :=
  { t with lines := changeFirst (fun r => r.state == .opened) (fun _ => d) t.lines }

/-- The decided span of a line in hand holds `i` (R159, R162). -/
def LineRecord.spans (r : LineRecord) (i : CopyIndex) : Bool :=
  match r.endIdx with
  | some e => inSpan i r.start e
  | none => false

end Sys2Proof.Machine
end

