-- ==== Sys2Proof/Machine/Formats.lean ====
section
/-! DEFINITION. Frame formats (12.1, 12.2): the check word, the payload of every class, and the form check of R186. -/

namespace Sys2Proof.Machine

/-! ### The check word (R185) -/

/-- One bit enters the check register. -/
def checkBit (r : BitVec 16) (b : Bool) : BitVec 16 :=
  if r.msb != b then (r <<< 1) ^^^ 0x1021#16 else r <<< 1

/-- The bits of a number, highest of `n` first. -/
def bitsOf : Nat → Nat → List Bool
  | 0, _ => []
  | n + 1, v => bitsOf n (v / 2) ++ [v % 2 == 1]

/-- The bits of a frame in the order of 12.1, up to the end of the payload. -/
def frameBits (word : ArbWord) (payload : List Byte) : List Bool :=
  bitsOf 12 word.toNat ++ bitsOf 6 payload.length ++ payload.flatMap (fun b => bitsOf 8 b.toNat)

/-- The check word of a frame (R185): the register starts at FFFFh. -/
def checkWord (word : ArbWord) (payload : List Byte) : BitVec 16 :=
  (frameBits word payload).foldl checkBit 0xFFFF#16

/-! ### Fields -/

/-- A number in `n` bytes, high byte first. -/
def natBytes : Nat → Nat → List Byte
  | 0, _ => []
  | n + 1, v => natBytes n (v / 256) ++ [BitVec.ofNat 8 v]

/-- The number that bytes hold, high byte first. -/
def bytesNat (bs : List Byte) : Nat := bs.foldl (fun a b => a * 256 + b.toNat) 0

/-- The number in the `n` payload bytes from byte `i`. -/
def numField (p : List Byte) (i n : Nat) : Nat := bytesNat ((p.drop i).take n)

/-- The 16-bit field at byte `i`. -/
def wordField (p : List Byte) (i : Nat) : BitVec 16 := BitVec.ofNat 16 (numField p i 2)

/-- A flag as the bit of weight `w`. -/
def flagBit (b : Bool) (w : Nat) : Nat := if b then w else 0

/-- Whether the bit of weight `w` is set. -/
def hasBit (v w : Nat) : Bool := v / w % 2 == 1

/-- A signed number in 16 bits, two's complement. -/
def signed16 (v : Nat) : Int := (BitVec.ofNat 16 v).toInt

/-! ### RECALL and KILL -/

structure RecallMsg where
  line  : LineNumber
  gen   : Nat
  start : CopyIndex
  cause : Nat
  deriving DecidableEq, Repr

def RecallMsg.encode (m : RecallMsg) : List Byte :=
  natBytes 2 m.line.toNat ++ natBytes 1 m.gen ++ natBytes 2 m.start.toNat ++ natBytes 1 m.cause

/-- R186: at least 6 bytes, generation 0 or 1. -/
def RecallMsg.parse (p : List Byte) : Option RecallMsg :=
  if p.length < 6 ∨ 1 < numField p 2 1 then none
  else some ⟨wordField p 0, numField p 2 1, wordField p 3, numField p 5 1⟩

/-! ### TAKEN -/

/-- R186: at least 2 bytes. -/
def parseTaken (p : List Byte) : Option LineNumber :=
  if p.length < 2 then none else some (wordField p 0)

/-! ### VERDICT -/

structure VerdictMsg where
  line       : LineNumber
  gen        : Nat
  start      : CopyIndex
  endIdx     : CopyIndex
  kind       : BreakKind
  natural    : Nat
  setWidth   : Nat
  spaces     : Nat
  points     : Nat
  glyphs     : Nat
  leading    : Nat
  lastOfPara : Bool
  overset    : Bool
  loose      : Bool
  deriving DecidableEq, Repr

def BreakKind.code : BreakKind → Nat
  | .space => 0
  | .hyphen => 1
  | .breakAfter => 2
  | .paragraph => 3
  | .overset => 4

def BreakKind.ofCode : Nat → Option BreakKind
  | 0 => some .space
  | 1 => some .hyphen
  | 2 => some .breakAfter
  | 3 => some .paragraph
  | 4 => some .overset
  | _ => none

def VerdictMsg.encode (m : VerdictMsg) : List Byte :=
  natBytes 2 m.line.toNat ++ natBytes 1 m.gen ++ natBytes 2 m.start.toNat ++ natBytes 2 m.endIdx.toNat ++
  natBytes 1 m.kind.code ++ natBytes 4 m.natural ++ natBytes 4 m.setWidth ++ natBytes 1 m.spaces ++
  natBytes 2 m.points ++ natBytes 2 m.glyphs ++ natBytes 2 m.leading ++
  natBytes 1 (flagBit m.lastOfPara 1 + flagBit m.overset 2 + flagBit m.loose 4)

/-- R186: at least 24 bytes, generation 0 or 1, break kind 0 to 4. -/
def VerdictMsg.parse (p : List Byte) : Option VerdictMsg :=
  if p.length < 24 ∨ 1 < numField p 2 1 then none
  else
    match BreakKind.ofCode (numField p 7 1) with
    | none => none
    | some kind =>
      some {
        line := wordField p 0
        gen := numField p 2 1
        start := wordField p 3
        endIdx := wordField p 5
        kind := kind
        natural := numField p 8 4
        setWidth := numField p 12 4
        spaces := numField p 16 1
        points := numField p 17 2
        glyphs := numField p 19 2
        leading := numField p 21 2
        lastOfPara := hasBit (numField p 23 1) 1
        overset := hasBit (numField p 23 1) 2
        loose := hasBit (numField p 23 1) 4 }

def VerdictMsg.figures (m : VerdictMsg) : Figures := ⟨m.start, m.endIdx, m.natural, m.spaces, m.points⟩

/-! ### MEASURE -/

structure MeasureMsg where
  start      : CopyIndex
  count      : Nat
  level      : Nat
  width      : Nat
  elongWidth : Nat
  continues  : Bool
  elongCount : Nat
  opps       : List TallyOpp
  deriving DecidableEq, Repr

def OppKind.bit : OppKind → Nat
  | .breakAfter => 0
  | .softHyphen => 128

def TallyOpp.encode (o : TallyOpp) : List Byte :=
  natBytes 1 (o.kind.bit + o.points) ++ natBytes 2 o.offset ++ natBytes 3 o.width

def MeasureMsg.encode (m : MeasureMsg) : List Byte :=
  natBytes 2 m.start.toNat ++ natBytes 2 m.count ++ natBytes 1 m.level ++ natBytes 3 m.width ++
  natBytes 2 m.elongWidth ++ natBytes 1 (flagBit m.continues 128 + m.elongCount) ++ natBytes 1 m.opps.length ++
  m.opps.flatMap TallyOpp.encode

/-- Opportunity `j` of a MEASURE payload, at byte 12 + 6j. -/
def parseOpp (p : List Byte) (at0 : Nat) : TallyOpp where
  kind := if hasBit (numField p at0 1) 128 then .softHyphen else .breakAfter
  offset := numField p (at0 + 1) 2
  points := numField p at0 1 % 16
  width := numField p (at0 + 3) 3

def parseOpps (p : List Byte) : Nat → Nat → List TallyOpp
  | 0, _ => []
  | n + 1, at0 => parseOpp p at0 :: parseOpps p n (at0 + 6)

/-- R186: offsets rise, each above the one before (0 before the first) and below the item count. -/
def offsetsRise (count : Nat) : Nat → List TallyOpp → Bool
  | _, [] => true
  | before, o :: rest => before < o.offset && o.offset < count && offsetsRise count o.offset rest

/-- The form check of R186 on the fields of a MEASURE. -/
def MeasureMsg.wellFormed (m : MeasureMsg) : Bool :=
  m.level ≤ 15 && m.count != 0 && m.opps.length ≤ 6 && offsetsRise m.count 0 m.opps

/-- R186. -/
def MeasureMsg.parse (p : List Byte) : Option MeasureMsg :=
  if p.length < 12 ∨ 6 < numField p 11 1 ∨ p.length < 12 + 6 * numField p 11 1 then none
  else
    let m : MeasureMsg := {
      start := wordField p 0
      count := numField p 2 2
      level := numField p 4 1
      width := numField p 5 3
      elongWidth := numField p 8 2
      continues := hasBit (numField p 10 1) 128
      elongCount := numField p 10 1 % 16
      opps := parseOpps p (numField p 11 1) 12 }
    if m.wellFormed then some m else none

/-! ### PLACE -/

/-- A PLACE entry (R146). -/
structure PlaceEntry where
  glyph   : Nat
  slot    : Nat
  x       : Nat
  y       : Int
  setSize : Nat
  mark    : Bool
  missing : Bool
  piece   : Bool
  hyphen  : Bool
  deriving DecidableEq, Repr

structure PlaceMsg where
  line    : LineNumber
  gen     : Nat
  first   : Nat
  last    : Bool
  entries : List PlaceEntry
  deriving DecidableEq, Repr

def PlaceEntry.encode (e : PlaceEntry) : List Byte :=
  natBytes 2 (e.slot * 4096 + e.glyph) ++ natBytes 2 e.x ++ natBytes 2 (BitVec.ofInt 16 e.y).toNat ++
  natBytes 2 (flagBit e.mark 32768 + flagBit e.missing 16384 + flagBit e.piece 8192 + flagBit e.hyphen 4096 + e.setSize)

def PlaceMsg.encode (m : PlaceMsg) : List Byte :=
  natBytes 2 m.line.toNat ++ natBytes 1 m.gen ++ natBytes 2 m.first ++
  natBytes 1 (flagBit m.last 128 + m.entries.length) ++ m.entries.flatMap PlaceEntry.encode

def parseEntry (p : List Byte) (at0 : Nat) : PlaceEntry where
  glyph := numField p at0 2 % 4096
  slot := numField p at0 2 / 4096
  x := numField p (at0 + 2) 2 % 16384
  y := signed16 (numField p (at0 + 4) 2)
  setSize := numField p (at0 + 6) 2 % 512
  mark := hasBit (numField p (at0 + 6) 2) 32768
  missing := hasBit (numField p (at0 + 6) 2) 16384
  piece := hasBit (numField p (at0 + 6) 2) 8192
  hyphen := hasBit (numField p (at0 + 6) 2) 4096

def parseEntries (p : List Byte) : Nat → Nat → List PlaceEntry
  | 0, _ => []
  | n + 1, at0 => parseEntry p at0 :: parseEntries p n (at0 + 8)

/-- R186: at least 6 + 8 × entry count bytes, generation 0 or 1, entry count 1 to 6. -/
def PlaceMsg.parse (p : List Byte) : Option PlaceMsg :=
  let n := numField p 5 1 % 8
  if p.length < 6 ∨ p.length < 6 + 8 * n ∨ 1 < numField p 2 1 ∨ n = 0 ∨ 6 < n then none
  else some ⟨wordField p 0, numField p 2 1, numField p 3 2, hasBit (numField p 5 1) 128, parseEntries p n 6⟩

/-! ### NOTICE -/

/-- The classes of section 9.2. -/
inductive CondClass where
  | trap | fault | abort | withdraw
  deriving DecidableEq, Repr

/-- The code of a condition (9.2). -/
def CondCode.code : CondCode → Nat
  | .glyphMissing => 1
  | .overset => 2
  | .looseLine => 3
  | .embedOverflow => 4
  | .claimClash => 5
  | .longHold => 6
  | .stationLost => 7
  | .lateRecall => 8
  | .lateDivergence => 9
  | .cartridgeAddress => 16
  | .frameDropped => 17
  | .coverageTimeout => 18
  | .divergence => 19
  | .tallyFull => 32
  | .glyphStoreFull => 33
  | .copyGap => 34
  | .twinStation => 48
  | .cartridgeRemoved => 49
  | .cartridgeUnusable => 50
  | .linkLost => 51
  | .escalation => 52

/-- The class of a condition (9.2). -/
def CondCode.cls : CondCode → CondClass
  | .glyphMissing | .overset | .looseLine | .embedOverflow | .claimClash | .longHold | .stationLost | .lateRecall
  | .lateDivergence => .trap
  | .cartridgeAddress | .frameDropped | .coverageTimeout | .divergence => .fault
  | .tallyFull | .glyphStoreFull | .copyGap => .abort
  | .twinStation | .cartridgeRemoved | .cartridgeUnusable | .linkLost | .escalation => .withdraw

/-- Whether a condition's category is contributory (9.2). -/
def CondCode.contributory : CondCode → Bool
  | .cartridgeAddress | .frameDropped | .coverageTimeout | .divergence | .tallyFull | .glyphStoreFull => true
  | .glyphMissing | .overset | .looseLine | .embedOverflow | .claimClash | .longHold | .stationLost | .lateRecall
  | .lateDivergence | .copyGap | .twinStation | .cartridgeRemoved | .cartridgeUnusable | .linkLost
  | .escalation => false

/-- The class byte of a NOTICE (12.2). -/
def CondClass.code : CondClass → Nat
  | .trap => 0
  | .fault => 1
  | .abort => 2
  | .withdraw => 3

/-- The category byte of a NOTICE (12.2): 2 for the withdraw conditions, which have no category. -/
def CondCode.category (c : CondCode) : Nat :=
  if c.cls = .withdraw then 2 else if c.contributory then 1 else 0

def Notice.encode (n : Notice) : List Byte :=
  natBytes 1 n.code.code ++ natBytes 1 n.code.cls.code ++ natBytes 1 n.code.category ++
  natBytes 2 n.line.toNat ++ natBytes 2 n.item.toNat ++ natBytes 2 n.resume.toNat ++
  natBytes 1 (match n.ext with | some e => 128 + e | none => 0) ++ natBytes 1 n.cause

/-- The condition code a NOTICE carries; R186: at least 11 bytes. -/
def parseNotice (p : List Byte) : Option Nat :=
  if p.length < 11 then none else some (numField p 0 1)

/-! ### MUSTER -/

def musterPayload (station claims : Nat) (fallback : Bool) : List Byte :=
  natBytes 1 station ++ natBytes 1 claims ++ natBytes 1 (flagBit fallback 1)

/-- R186: at least 3 bytes. -/
def musterFormed (p : List Byte) : Bool := 3 ≤ p.length

end Sys2Proof.Machine
end

