-- ==== Sys2Proof/Machine/Arithmetic.lean ====
section
/-! DEFINITION. Measure arithmetic (chapter 5): widths, unit values in steps, the carried remainder and the setting of a
line. -/

namespace Sys2Proof.Machine

/-! ### Segment widths (5.1) -/

/-- A running numerator rounded half up (R82). -/
def roundHalfUp (n : Nat) : Nat := (n + 288) / 576

/-- R81: the contribution of a glyph record. -/
def GlyphRecord.contribution (g : GlyphRecord) : Nat := g.advance * g.setSize * 10

/-- R81: the sum over a run of glyph records. -/
def numeratorOf (gs : List GlyphRecord) : Nat := (gs.map GlyphRecord.contribution).sum

/-- R82: the width of a run of glyph records. -/
def segmentWidth (gs : List GlyphRecord) : Nat := roundHalfUp (numeratorOf gs)

/-- R84: a value in units as steps at set size `q`. -/
def unitSteps (v : Int) (q : Nat) : Int := (v * q * 10 + 288).fdiv 576

/-- R84 for a value that is not negative. -/
def unitStepsNat (v q : Nat) : Nat := (v * q * 10 + 288) / 576

/-- R82: the step advances of records that are all counted, given the numerator before them. -/
def stepAdvancesFrom : Nat → List GlyphRecord → List Nat
  | _, [] => []
  | n, g :: rest => (roundHalfUp (n + g.contribution) - roundHalfUp n) :: stepAdvancesFrom (n + g.contribution) rest

/-- R82: the step advance of every glyph record of a segment; a hyphen glyph at the end of a first part has the hyphen
width of R84 and does not enter the numerator. -/
def stepAdvances (gs : List GlyphRecord) : List Nat :=
  stepAdvancesFrom 0 (gs.filter (!·.hyphen)) ++
    (gs.filter (·.hyphen)).map (fun g => unitStepsNat g.advance g.setSize)

/-- R83: the prefix of a break opportunity with split `k`. -/
def prefixWidth (gs : List GlyphRecord) (k : Nat) (hyphen : Option HyphenGlyph) : Nat :=
  roundHalfUp (numeratorOf (gs.take k)) +
    match hyphen, gs[k - 1]? with
    | some h, some g => unitStepsNat h.width g.setSize
    | _, _ => 0

/-! ### The carried remainder (R87) -/

/-- R87: the shares of `n` receivers, from accumulator `acc`: the first argument counts receivers still to be served. -/
def sharesFrom (base r n : Nat) : Nat → Nat → List Nat
  | 0, _ => []
  | k + 1, acc =>
    if n ≤ acc + r then (base + 1) :: sharesFrom base r n k (acc + r - n)
    else base :: sharesFrom base r n k (acc + r)

/-- R87: amount `a` spread over `n` receivers in logical order. -/
def spreadShares (a n : Nat) : List Nat := sharesFrom (a / n) (a % n) n n 0

/-! ### Items of a line -/

/-- R127: the natural width of a segment item, its opportunity's prefix when a decision cut it. -/
def SegItem.natural (g : SegItem) : Nat := match g.cut with | some o => o.width | none => g.width

/-- R127: the elongation points of a segment item in its line. -/
def SegItem.points (g : SegItem) : Nat := match g.cut with | some o => o.points | none => g.elongCount

/-- R118, R127: the number of items in a segment item's copy range. -/
def SegItem.range (g : SegItem) : Nat := match g.cut with | some o => o.offset | none => g.count

def TallyItem.start : TallyItem → CopyIndex
  | .segment g => g.start
  | .space i _ _ _ _ => i
  | .thin i _ _ => i

/-- The number of items in an item's copy range (R118). -/
def TallyItem.range : TallyItem → Nat
  | .segment g => g.range
  | .space _ _ _ _ _ => 1
  | .thin _ _ _ => 1

def TallyItem.level : TallyItem → Nat
  | .segment g => g.level
  | .space _ l _ _ _ => l
  | .thin _ l _ => l

def TallyItem.natural : TallyItem → Nat
  | .segment g => g.natural
  | .space _ _ n _ _ => n
  | .thin _ _ w => w

/-- R85: the shrink capacity of an item. -/
def TallyItem.shrink : TallyItem → Nat
  | .space _ _ n m _ => n - m
  | .segment _ | .thin _ _ _ => 0

def TallyItem.isSpace : TallyItem → Bool
  | .space _ _ _ _ _ => true
  | .segment _ | .thin _ _ _ => false

def TallyItem.points : TallyItem → Nat
  | .segment g => g.points
  | .space _ _ _ _ _ | .thin _ _ _ => 0

/-- R85: the tally item of a SPACE, from the profile's units and its stamp. -/
def spaceItem (u : MeasureUnit) (i : CopyIndex) (st : Stamp) : TallyItem :=
  .space i st.level (unitStepsNat u.natural st.setSize) (unitStepsNat u.minimum st.setSize) (unitStepsNat u.maximum st.setSize)

/-- R85: the tally item of a THIN of `n` units. -/
def thinItem (i : CopyIndex) (n : Nat) (st : Stamp) : TallyItem := .thin i st.level (unitStepsNat n st.setSize)

/-! ### Line figures (R86, R88) -/

def naturalWidth (items : List TallyItem) : Nat := (items.map TallyItem.natural).sum

def spaceCount (items : List TallyItem) : Nat := items.countP TallyItem.isSpace

def pointCount (items : List TallyItem) : Nat := (items.map TallyItem.points).sum

/-- R86: the elongation glyph widths of the segments that have elongation points. -/
def elongWidths : List TallyItem → List Nat
  | [] => []
  | .segment g :: rest => if 0 < g.points then g.elongWidth :: elongWidths rest else elongWidths rest
  | .space _ _ _ _ _ :: rest => elongWidths rest
  | .thin _ _ _ :: rest => elongWidths rest

/-- R86: the elongation capacity of a line, with elongation multiple `c`. -/
def elongCapacity (c : Nat) (items : List TallyItem) : Nat :=
  match elongWidths items with
  | [] => 0
  | e :: rest => pointCount items * c * rest.foldl min e

/-! ### Stretching (R89 to R91) -/

/-- R89: the shares of the points of each item, taken in logical order from the line's shares. -/
def dealShares : List TallyItem → List Nat → List (List Nat)
  | [], _ => []
  | it :: rest, sh => sh.take it.points :: dealShares rest (sh.drop it.points)

/-- R89, R90: set widths of a line that is not shrunk: points take `pts`, spaces take `sps` in logical order. -/
def stretchWidths : List TallyItem → List (List Nat) → List Nat → List Nat
  | [], _, _ => []
  | it :: rest, pts, sps =>
    if it.isSpace then (it.natural + sps.headD 0) :: stretchWidths rest pts.tail sps.tail
    else (it.natural + (pts.headD []).sum) :: stretchWidths rest pts.tail sps

/-- R90: the first space in logical order that is set above its maximum. -/
def firstLoose : List TallyItem → List Nat → Option CopyIndex
  | .space i _ _ _ mx :: rest, w :: ws => if mx < w then some i else firstLoose rest ws
  | _ :: rest, _ :: ws => firstLoose rest ws
  | _, _ => none

/-! ### Shrinking (R92, R93) -/

/-- R92, first pass over the shrink capacities: what each space gives, and the excess after the last. -/
def shrinkFirst : List Nat → List Nat → Nat → List Nat × Nat
  | cap :: caps, share :: rest, excess =>
    let give := min (share + excess) cap
    let r := shrinkFirst caps rest (share + excess - give)
    (give :: r.1, r.2)
  | _, _, excess => ([], excess)

/-- R92, second pass: what each space has given in both passes, and the excess left. -/
def shrinkSecond : List Nat → List Nat → Nat → List Nat × Nat
  | cap :: caps, given :: rest, excess =>
    let more := min excess (cap - given)
    let r := shrinkSecond caps rest (excess - more)
    ((given + more) :: r.1, r.2)
  | _, _, excess => ([], excess)

def shrinkCaps (items : List TallyItem) : List Nat := (items.filter TallyItem.isSpace).map TallyItem.shrink

/-- R92: what the spaces of a line give, in logical order, for a need. -/
def shrinkGives (caps : List Nat) (need : Nat) : List Nat :=
  let f := shrinkFirst caps (spreadShares need caps.length) 0
  (shrinkSecond caps f.1 f.2).1

/-- R92: set widths of a shrunk line. -/
def shrinkWidths : List TallyItem → List Nat → List Nat
  | [], _ => []
  | it :: rest, gs =>
    if it.isSpace then (it.natural - gs.headD 0) :: shrinkWidths rest gs.tail else it.natural :: shrinkWidths rest gs

/-! ### The setting (R88) -/

/-- R94: the quad offset of a line that is not overset, for slack `s` of 0 or more. -/
def quadOffset (mode : QuadMode) (base s : Nat) : Nat :=
  match mode with
  | .justify => 0
  | .flushStart => if base = 1 then s else 0
  | .flushEnd => if base = 1 then 0 else s
  | .centre => s / 2

/-- The setting of a line whose slack is below 0 (R92, R93). -/
def shrunkSetting (p : LineParams) (quad : QuadMode) (items : List TallyItem) : Setting :=
  let natural := naturalWidth items
  let widths := shrinkWidths items (shrinkGives (shrinkCaps items) (natural - p.measure))
  { natural := natural, slack := (p.measure : Int) - natural, spaces := spaceCount items, points := pointCount items,
    quad := quad, mode := quad, widths := widths, shares := dealShares items [], setWidth := widths.sum, offset := 0,
    overhang := widths.sum - p.measure, loose := false, looseItem := none }

/-- The setting of a START, END or CENTRE line whose slack is 0 or more (R94). -/
def quadSetting (p : LineParams) (quad : QuadMode) (items : List TallyItem) : Setting :=
  let natural := naturalWidth items
  { natural := natural, slack := (p.measure : Int) - natural, spaces := spaceCount items, points := pointCount items,
    quad := quad, mode := quad, widths := items.map TallyItem.natural, shares := dealShares items [],
    setWidth := natural, offset := quadOffset quad p.base (p.measure - natural), overhang := 0, loose := false,
    looseItem := none }

/-- The setting of a JUSTIFY line whose slack is 0 or more (R89 to R91). -/
def justifySetting (c : Nat) (p : LineParams) (items : List TallyItem) : Setting :=
  let natural := naturalWidth items
  let s := p.measure - natural
  let t := if p.spread = .elongate then min s (elongCapacity c items) else 0
  let shares := dealShares items (if t = 0 then [] else spreadShares t (pointCount items))
  if spaceCount items = 0 then
    let widths := stretchWidths items shares []
    { natural := natural, slack := s, spaces := 0, points := pointCount items, quad := .justify,
      mode := if 0 < s - t then .flushStart else .justify, widths := widths, shares := shares, setWidth := widths.sum,
      offset := quadOffset (if 0 < s - t then .flushStart else .justify) p.base (s - t), overhang := 0,
      loose := 0 < s - t, looseItem := none }
  else
    let widths := stretchWidths items shares (spreadShares (s - t) (spaceCount items))
    { natural := natural, slack := s, spaces := spaceCount items, points := pointCount items, quad := .justify,
      mode := .justify, widths := widths, shares := shares, setWidth := widths.sum, offset := 0, overhang := 0,
      loose := (firstLoose items widths).isSome, looseItem := firstLoose items widths }

/-- R88: the setting of a line, `c` the elongation multiple and `last` whether the line ends its paragraph. -/
def lineSetting (c : Nat) (p : LineParams) (last : Bool) (items : List TallyItem) : Setting :=
  let quad := if last then p.last else p.ordinary
  if p.measure < naturalWidth items then shrunkSetting p quad items
  else if quad = .justify then justifySetting c p items
  else quadSetting p quad items

end Sys2Proof.Machine
end

