-- ==== Sys2Proof/Machine/Bus.lean ====
section
/-! DEFINITION. The bus port's queues (chapter 6): slots and order of the transmit queue, waiting frames, removal, and the
spoil decision. -/

namespace Sys2Proof.Machine

/-- R103. -/
def ordinarySlots : Nat := 24

/-- R103. -/
def urgentSlots : Nat := 2

/-- R97. -/
def receiveSlots : Nat := 16

/-- R106: the spoil after which a frame is dropped. -/
def maxSpoils : Nat := 8

/-- R158: how many NOTICE frames may wait. -/
def noticeWaitLimit : Nat := 8

/-- R96: the levels used when no profile sets one. -/
def defaultLevels : Levels := ⟨1, 1, 4, 5, 6, 8, 8⟩

/-- R96: the level of a class this station sends. -/
def Levels.of (l : Levels) : FrameClass → Nat
  | .lineRecall => l.ofRecall
  | .lineKill => l.ofKill
  | .verdict => l.ofVerdict
  | .measure => l.ofMeasure
  | .place => l.ofPlace
  | .notice => l.ofNotice
  | .muster => l.ofMuster
  | .clear | .hold | .release | .taken | .copy | .unassigned => 0

/-- R96: a frame of this station with the profile's level for its class. -/
def BusPort.frame (p : BusPort) (c : FrameClass) (payload : List Byte) : Frame :=
  ⟨arbWord ((p.levels.getD defaultLevels).of c) c p.station, payload⟩

/-- R103: lowest word first; frames of one word in the order they entered. -/
def txInsert (t : TxFrame) : List TxFrame → List TxFrame
  | [] => [t]
  | x :: rest => if t.frame.word.toNat < x.frame.word.toNat then t :: x :: rest else x :: txInsert t rest

def BusPort.ordinaryUsed (p : BusPort) : Nat := p.tx.countP (fun t => !t.urgent)

def BusPort.urgentUsed (p : BusPort) : Nat := p.tx.countP (fun t => t.urgent)

/-- R103: only RECALL and KILL occupy urgent slots. -/
def FrameClass.mayBeUrgent (c : FrameClass) : Bool := c == .lineRecall || c == .lineKill

/-- R103: the slot a frame may take now, urgent (`true`) or ordinary, or none. -/
def BusPort.slotFor (p : BusPort) (c : FrameClass) : Option Bool :=
  if c.mayBeUrgent && p.urgentUsed < urgentSlots then some true
  else if p.ordinaryUsed < ordinarySlots then some false
  else none

/-- The line number a VERDICT, PLACE, RECALL or KILL of this station carries (12.2). -/
def Frame.lineNumber (f : Frame) : LineNumber := wordField f.payload 0

/-- The segment start index a MEASURE of this station carries (12.2). -/
def Frame.segStart (f : Frame) : CopyIndex := wordField f.payload 0

/-- R105, R152, R153: the held-back mark a frame enters the queue with. -/
def PlacementUnit.entryMark (u : PlacementUnit) (f : Frame) : Bool :=
  u.held && f.cls == .place &&
    match u.response with
    | .atFrame => true
    | .atLineEnd => u.finishing != some f.lineNumber
    | .replaceLine => false

/-- A frame enters the transmit queue in the slot given (R97, R103). -/
def BusPort.enqueue (p : BusPort) (f : Frame) (urgent mark : Bool) : BusPort :=
  { p with tx := txInsert ⟨f, urgent, 0, mark, false, false⟩ p.tx }

/-- R102, R103, R112: the port takes frames from producers in ACTIVE, unless a CLEAR or a withdrawal is pending; otherwise
it discards them. -/
def State.accepts (s : State) : Bool := s.working && !s.port.clearPending

/-- R104: the producer has a frame waiting, and stalls. -/
def BusPort.stalled (p : BusPort) (who : Producer) : Bool := p.waiting.any (fun w => w.producer == who)

/-- R104, R158: a frame becomes a waiting frame of its producer; a ninth waiting NOTICE is lost. -/
def BusPort.await (p : BusPort) (who : Producer) (f : Frame) : BusPort :=
  if who = .notice ∧ noticeWaitLimit ≤ p.waiting.countP (fun w => w.producer == .notice) then p
  else { p with waiting := p.waiting ++ [⟨who, f⟩] }

/-- R103, R104: a producer hands the port a frame. -/
def handOver (who : Producer) (f : Frame) (s : State) : State :=
  if s.accepts then
    if s.port.stalled who then s.withPort (s.port.await who f)
    else
      match s.port.slotFor f.cls with
      | some urgent => s.withPort (s.port.enqueue f urgent (s.placement.entryMark f))
      | none => s.withPort (s.port.await who f)
  else s

/-- R107: queued and waiting frames that `which` names are removed; on the frame in flight the removal is noted. -/
def BusPort.remove (p : BusPort) (which : Frame → Bool) : BusPort :=
  { p with
    tx := p.tx.filterMap (fun t =>
      if which t.frame then (if t.inFlight then some { t with removed := true } else none) else some t)
    waiting := p.waiting.filter (fun w => !which w.frame) }

/-- R102, R112: every frame is removed from the transmit queue, waiting frames and any held MUSTER are discarded. -/
def BusPort.clearOut (p : BusPort) : BusPort :=
  { p.remove (fun _ => true) with heldMuster := none }

/-- R102, R113, R172: frames other than CLEAR leave the receive queue. -/
def BusPort.keepClears (p : BusPort) : BusPort := { p with rx := p.rx.filter Frame.isClear }

/-! ### Spoiling (R99) -/

/-- The station is in WITHDRAWN, or has a withdrawal pending. -/
def State.withdrawing (s : State) : Bool := s.condition.state == .withdrawn || s.port.withdrawalPending

/-- R99: the station checks frames as a LISTENING station does. -/
def State.checks (s : State) : Bool :=
  if s.withdrawing then s.port.clearPending
  else s.condition.state == .listening || s.condition.state == .active

/-- R16, R99: a COPY frame fails the copy reserve. -/
def State.failsReserve (s : State) : Bool := s.window.free < frameItems * (s.port.copyFrames + 1)

/-- R99: this station spoils a frame of class `c` whose check word is right or not. -/
def State.spoils (s : State) (c : FrameClass) (checkRight : Bool) : Bool :=
  s.checks && (!checkRight || receiveSlots ≤ s.port.rx.length || (s.working && c == .copy && s.failsReserve))

/-- R100: a carried frame is placed at the tail of the receive queue. -/
def BusPort.receive (p : BusPort) (f : Frame) : BusPort := { p with rx := p.rx ++ [f] }

/-- R102: a carried CLEAR is placed, CLEAR pending becomes yes and everything queued or waiting goes. -/
def BusPort.receiveClear (p : BusPort) (f : Frame) : BusPort :=
  { (p.receive f).clearOut with clearPending := true }

end Sys2Proof.Machine
end

