-- ==== Sys2Proof/Machine/Conditions.lean ====
section
/-! DEFINITION. The condition unit (9.1 to 9.3, 9.6): the line concerned, NOTICE frames, traps, faults, aborts, and
withdrawal. -/

namespace Sys2Proof.Machine

/-- R158. -/
def reportLimit : Nat := 32

/-- R158, R160. -/
def pendingNoticeLimit : Nat := 4

/-! ### Abandoning work (R40, R53, R79, R80) -/

/-- R40: the requests of a requester are removed from the port; its outstanding read has its word discarded. -/
def CartridgePort.abandon (p : CartridgePort) (who : Requester) : CartridgePort :=
  { p with
    waiting := p.waiting.filter (fun r => r.who != who)
    outstanding := p.outstanding.map (fun o => if o.who = who then { o with abandoned := true } else o) }

/-- R80: the measurement of the segment at `start`, if in progress, is dropped. -/
def MeasureUnit.drop (u : MeasureUnit) (start : CopyIndex) : MeasureUnit :=
  if u.segment = some start then { u with segment := none, numerator := 0, measured := 0 } else u

/-- R53, R79: the shaping operation in flight is abandoned and its reservation returned. A record that is kept goes back to WAITING
(DESIGN CHOICE, log entry 16). -/
def abandonShaping (s : State) : State :=
  match s.shaper.op with
  | none => s
  | some op =>
    { s with
      cartridge := s.cartridge.abandon .shaper
      measure := s.measure.drop op.start
      shaper := { s.shaper with
        op := none
        records := s.shaper.records.map (fun r =>
          if r.start = op.start ∧ r.state = .shaping then { r with state := .waiting } else r) } }

/-- R53, R72, R79: a box build in flight, or waiting for store room, is abandoned and releases its record. -/
def abandonBox (s : State) : State :=
  { s with
    cartridge := s.cartridge.abandon .box
    measure := match s.shaper.boxOp with | some op => s.measure.drop op.start | none => s.measure
    shaper := { s.shaper with
      boxOp := none
      boxes := s.shaper.boxes.filter (fun b => b.state == .ready) } }

/-! ### The line concerned (R159) -/

/-- A line a condition concerns; a line a kill has yet to open has no start index. -/
structure LineRef where
  number : LineNumber
  gen    : Nat
  start  : Option CopyIndex
  deriving DecidableEq, Repr

/-- R159: the line concerned, settled from an item. -/
def lineConcerned (s : State) (i : CopyIndex) : Option LineRef :=
  match s.tally.inHand.find? (fun r => r.spans i) with
  | some r => some ⟨r.number, r.gen, some r.start⟩
  | none =>
    match s.tally.openLine? with
    | some r => if atOrAfter i r.start then some ⟨r.number, r.gen, some r.start⟩ else none
    | none => s.condition.kill.map (fun k => ⟨k.next, 0, none⟩)

/-- A condition as a block raises it. `key` is the index that settles the line concerned, `line` a line the rule names
itself, `resume` a resume index the rule gives itself. -/
structure Cond where
  code   : CondCode
  item   : CopyIndex
  key    : CopyIndex
  ext    : Option Nat
  line   : Option LineRef
  resume : Option CopyIndex
  deriving DecidableEq, Repr

/-- A condition whose line is settled from its item. -/
def Cond.at (code : CondCode) (item : CopyIndex) (ext : Option Nat) : Cond := ⟨code, item, item, ext, none, none⟩

def Cond.ref (c : Cond) (s : State) : Option LineRef := c.line.orElse (fun _ => lineConcerned s c.key)

/-- The start index of the line concerned. A line that a kill has yet to open has none: a free value (log entry 5). -/
def LineRef.startIn (r : LineRef) (s : State) : CopyIndex := r.start.getD (Config.unopenedStart s.choices)

def LineRef.number? (r : Option LineRef) : LineNumber := (r.map LineRef.number).getD 0

/-! ### NOTICE frames (R160, R161) -/

def sendNotice (n : Notice) (s : State) : State := handOver .notice (s.port.frame .notice n.encode) s

/-- R160: an abort NOTICE is queued when its PARA is held, and held among the pending abort notices otherwise. -/
def sendAbortNotice (n : Notice) (after : CopyIndex) (s : State) : State :=
  match s.window.para? after with
  | some p => sendNotice { n with resume := p + 1 } s
  | none =>
    if s.condition.notices.length < pendingNoticeLimit then
      s.withCondition { s.condition with notices := s.condition.notices ++ [⟨n, after⟩] }
    else s

/-- R160: the pending abort notices whose PARA is held are queued, in the order they were made. -/
def releasePendingNotices (s : State) : State :=
  let due := s.condition.notices.filter (fun n => (s.window.para? n.after).isSome)
  let left := s.condition.notices.filter (fun n => (s.window.para? n.after).isNone)
  due.foldl (fun t n => sendAbortNotice n.notice n.after t) (s.withCondition { s.condition with notices := left })

/-- R160: a PARA joins at `p`, the first since each pending abort notice was made: all are queued, in the order made. -/
def queueNoticesAt (p : CopyIndex) (s : State) : State :=
  s.condition.notices.foldl (fun t n => sendNotice { n.notice with resume := p + 1 } t)
    (s.withCondition { s.condition with notices := [] })

/-! ### Traps (R162) -/

/-- R162: the traps held, with those whose line a kill has yet to open. -/
def State.trapsHeld (s : State) : Nat := s.condition.reports.length + s.placement.unreported.length

def trapNotice (t : Trap) (line : LineNumber) : Notice := ⟨t.code, line, t.item, t.item + 1, t.ext, 0⟩

/-- R162: a trap is reported at once when its line's own verdict has been carried or its line is taken, and held otherwise. -/
def raiseTrap (t : Trap) (s : State) : State :=
  match s.tally.inHand.find? (fun r => r.spans t.item && r.ownVerdict) with
  | some r => sendNotice (trapNotice t r.number) s
  | none =>
    if s.window.behind t.item then sendNotice (trapNotice t ((s.tally.taken.map TakenSummary.number).getD 0)) s
    else if s.trapsHeld < reportLimit then
      s.withCondition { s.condition with reports := s.condition.reports ++ [t] }
    else s

/-- R162: the held traps whose item `holds` leave the list, in the order raised, and are reported against line `n`. -/
def reportTraps (n : LineNumber) (holds : CopyIndex → Bool) (s : State) : State :=
  let due := s.condition.reports.filter (fun t => holds t.item)
  let left := s.condition.reports.filter (fun t => !holds t.item)
  due.foldl (fun u t => sendNotice (trapNotice t n) u) (s.withCondition { s.condition with reports := left })

/-- R133, R162, R164: a trap that names a line itself is reported at once against that line. -/
def raiseNamedTrap (t : Trap) (line : LineNumber) (s : State) : State :=
  if s.working then sendNotice (trapNotice t line) s else s

/-! ### RECALL and KILL frames (R163) -/

/-- R163: the recall producer has, queued or waiting, a frame that makes a further one for the line needless. A frame
whose removal is noted does not count (DESIGN CHOICE, log entry 18). -/
def recallHeld (p : BusPort) (c : FrameClass) (line : LineNumber) (gen : Nat) : Bool :=
  let covers (f : Frame) : Bool :=
    f.lineNumber == line &&
      ((f.cls == c && numField f.payload 2 1 == gen) || f.cls == .lineKill ||
        (f.cls == .lineRecall && numField f.payload 2 1 == 1))
  p.tx.any (fun t => t.frame.cls.mayBeUrgent && !t.removed && covers t.frame) ||
    p.waiting.any (fun w => w.frame.cls.mayBeUrgent && covers w.frame)

/-- R163: a RECALL (`lineRecall`) or KILL (`lineKill`) for the line concerned. -/
def sendRecall (c : FrameClass) (r : LineRef) (cause : CondCode) (s : State) : State :=
  if recallHeld s.port c r.number r.gen then s
  else handOver .recallKill (s.port.frame c (RecallMsg.encode ⟨r.number, r.gen, r.startIn s, cause.code⟩)) s

/-! ### Withdrawal (R112, R113, R172) -/

/-- R160: the resume index of a withdraw condition. -/
def withdrawResume (r : Option LineRef) (s : State) : CopyIndex :=
  match r with
  | some r => r.startIn s
  | none => s.window.next

/-- R112, R172: a withdrawal begins. -/
def withdraw (c : Cond) (cause : Nat) (s : State) : State :=
  let r := c.ref s
  let notice : Notice := ⟨c.code, LineRef.number? r, c.item, withdrawResume r s, c.ext, cause⟩
  let frame : Frame := ⟨arbWord 0 .notice s.port.station, notice.encode⟩
  let s := abandonBox (abandonShaping s)
  let cleared := { s.port.clearOut.keepClears with withdrawalPending := true }
  { s with
    port := if s.port.clearPending then cleared else cleared.enqueue frame false false
    shaper := { s.shaper with plan := [] }
    tally := { s.tally with coverage := .idle, verdictWait := ⟨none, none⟩ }
    placement := { s.placement with longHold := { s.placement.longHold with running := false }, unreported := [] }
    condition := { s.condition with reports := [], notices := [] }
    choices := if r.any (fun x => x.start.isNone) then s.choices + 1 else s.choices }

/-- R113: the station enters WITHDRAWN. -/
def enterWithdrawn (s : State) : State :=
  { s with
    port := { s.port.keepClears with tx := [], waiting := [], heldMuster := none, withdrawalPending := false }
    tally := { s.tally with coverage := .idle, verdictWait := ⟨none, none⟩ }
    placement := { s.placement with longHold := ⟨false, false⟩ }
    condition := { s.condition with state := .withdrawn } }

/-! ### What a condition does (R163) -/

/-- R163: a fault, outside the kill period. -/
def raiseFault (c : Cond) (s : State) : State :=
  match c.ref s with
  | none => sendNotice ⟨c.code, 0, c.item, c.resume.getD s.window.next, c.ext, 0⟩ s
  | some r =>
    let recalled := if r.gen = 1 ∨ c.code ≠ .cartridgeAddress then sendRecall .lineRecall r c.code s else s
    sendNotice ⟨c.code, r.number, c.item, c.resume.getD (r.startIn s), c.ext, 0⟩ recalled

/-- R163, R18: an abort, outside the kill period or benign. COPY GAP while a kill waits for its PARA sends no KILL, and its
PARA is sought from its gap point. -/
def raiseAbort (c : Cond) (s : State) : State :=
  match c.ref s with
  | none => sendAbortNotice ⟨c.code, 0, c.item, 0, c.ext, 0⟩ c.item s
  | some r =>
    let killed := if c.code = .copyGap ∧ s.condition.kill.isSome then s else sendRecall .lineKill r c.code s
    sendAbortNotice ⟨c.code, r.number, c.item, 0, c.ext, 0⟩ (if c.code = .copyGap then c.item else r.startIn s) killed

/-- The counter of free values moves on when a condition has named a line that a kill has yet to open. -/
def advanceChoices (r : Option LineRef) (s : State) : State :=
  if r.any (fun x => x.start.isNone) then s.withChoices (s.choices + 1) else s

/-- R159, R163, R174: a condition is raised. Only a working station raises one. -/
def raise (c : Cond) (s : State) : State :=
  if s.working then
    if c.code.cls = .withdraw then withdraw c 0 s
    else if c.code.contributory ∧ s.condition.killPeriod.isSome then
      withdraw { c with code := .escalation } c.code.code s
    else
      match c.code.cls with
      | .trap => raiseTrap ⟨c.code, c.item, c.ext⟩ s
      | .fault => advanceChoices (c.ref s) (raiseFault c s)
      | .abort | .withdraw => advanceChoices (c.ref s) (raiseAbort c s)
  else s

end Sys2Proof.Machine
end

