-- ==== Sys2Proof/Machine/Cartridge.lean ====
section
/-! DEFINITION. Reading the font cartridge (chapter 3, 12.4): the six tables, the address rules, slot selection. A reader
is run against the words an operation has received so far; it stops where it needs a further word, finds a violation, or
finds no slot. -/

namespace Sys2Proof.Machine

/-! ### Readers -/

/-- Why a reader stops short of its result. -/
inductive ReadStop where
  /-- The word at this address is needed next. -/
  | need (addr : Nat)
  /-- R50, R52: an address rule is broken in a slot, found by a lookup for the item. -/
  | violation (slot : Nat) (item : CopyIndex)
  /-- R51: no slot is found for the item. -/
  | unusable (item : CopyIndex)
  deriving DecidableEq, Repr

/-- The six tables of R49 and R50. -/
inductive TableId where
  | glyph | codeMap | anchor | form | ligature | kern
  deriving DecidableEq, Repr

/-- A font record (R42). -/
structure FontRecord where
  glyphCount   : Nat
  missing      : Nat
  hyphen       : Nat
  elongation   : Nat
  codeMap      : Nat
  codeMapCount : Nat
  glyphTable   : Nat
  formTable    : Nat
  formCount    : Nat
  ligature     : Nat
  kern         : Nat
  anchor       : Nat
  deriving DecidableEq, Repr

/-- What a reader carries: words received and not yet used, font records kept for the operation (R42), slots used, tables
checked (R50), and the glyph records once the seventh step has ended (R80). -/
structure ReadState where
  words   : List CartWord
  fonts   : List (Nat × FontRecord)
  used    : List Nat
  checked : List (Nat × TableId)
  shaped  : Option (List GlyphRecord)
  deriving DecidableEq, Repr

/-- What a reader is run in: the cartridge size in use, the directory copy and the usability flags (R39). -/
structure ReadEnv where
  size      : Nat
  directory : List Nat
  usable    : List Bool
  deriving DecidableEq, Repr

abbrev Reader (α : Type) := ExceptT ReadStop (StateM ReadState) α

/-- A reader run from its start on the words received. -/
def runReader {α : Type} (r : Reader α) (words : List CartWord) : Except ReadStop α × ReadState :=
  StateT.run (ExceptT.run r) ⟨words, [], [], [], none⟩

/-- R40: one word. -/
def readWord (addr : Nat) : Reader CartWord := do
  let st ← get
  match st.words with
  | [] => throw (.need addr)
  | w :: rest =>
    set { st with words := rest }
    return w

/-- `n` words from `addr`, one after another. -/
def readWords (addr : Nat) : Nat → Reader (List CartWord)
  | 0 => return []
  | n + 1 => do
    let w ← readWord addr
    let rest ← readWords (addr + 1) n
    return w :: rest

/-! ### Fields (12.4, R187) -/

/-- An address of two words: bits 20-0 of the pair, high word first. -/
def pairAddr (hi lo : CartWord) : Nat := hi.toNat % 32 * 65536 + lo.toNat

/-- A code map's first code: bits 19-0 of the pair. -/
def pairCode (hi lo : CartWord) : Nat := hi.toNat % 16 * 65536 + lo.toNat

/-- A pair of words read whole. -/
def pairWhole (hi lo : CartWord) : Nat := hi.toNat * 65536 + lo.toNat

/-- Word `i` of a record. -/
def wordAt (ws : List CartWord) (i : Nat) : CartWord := ws.getD i 0

def FontRecord.ofWords (ws : List CartWord) : FontRecord where
  glyphCount := (wordAt ws 0).toNat
  missing := (wordAt ws 1).toNat
  hyphen := (wordAt ws 2).toNat
  elongation := (wordAt ws 3).toNat
  codeMap := pairAddr (wordAt ws 4) (wordAt ws 5)
  codeMapCount := (wordAt ws 6).toNat
  glyphTable := pairAddr (wordAt ws 7) (wordAt ws 8)
  formTable := pairAddr (wordAt ws 9) (wordAt ws 10)
  formCount := (wordAt ws 11).toNat
  ligature := pairAddr (wordAt ws 12) (wordAt ws 13)
  kern := pairAddr (wordAt ws 14) (wordAt ws 15)
  anchor := pairAddr (wordAt ws 16) (wordAt ws 17)

/-- R42: the second and third checks of a font record. -/
def FontRecord.sound (f : FontRecord) : Bool :=
  f.glyphCount ≤ 4096 && f.missing < f.glyphCount && f.hyphen < f.glyphCount && f.elongation < f.glyphCount

/-! ### Slots and checks -/

/-- The words of a font record (R42). -/
def fontWords : Nat := 18

/-- R51: a slot that is neither empty nor unusable. -/
def ReadEnv.slotUsable (env : ReadEnv) (slot : Nat) : Bool := env.directory.getD slot 0 != 0 && env.usable.getD slot true

/-- R51: the slot of a character, from its stamp and its claim's default slot. -/
def ReadEnv.resolve (env : ReadEnv) (stamped : Option Nat) (dflt : Nat) : Option Nat :=
  if env.slotUsable (stamped.getD dflt) then some (stamped.getD dflt)
  else if env.slotUsable dflt then some dflt
  else if env.slotUsable 0 then some 0
  else none

/-- R42: a slot's font record, read at the operation's first lookup in the slot. -/
def fontOf (env : ReadEnv) (slot : Nat) (item : CopyIndex) : Reader FontRecord := do
  let st ← get
  match st.fonts.find? (fun p => p.1 == slot) with
  | some p => return p.2
  | none =>
    set { st with used := slot :: st.used }
    let addr := env.directory.getD slot 0
    if env.size < addr + fontWords then throw (.violation slot item)
    let ws ← readWords addr fontWords
    let f := FontRecord.ofWords ws
    if !f.sound then throw (.violation slot item)
    modify fun t => { t with fonts := (slot, f) :: t.fonts }
    return f

/-- R50: the check of a present table before its first read in the operation. -/
def checkTable (env : ReadEnv) (slot : Nat) (table : TableId) (addr length : Nat) (even : Bool) (item : CopyIndex) :
    Reader Unit := do
  let st ← get
  if st.checked.contains (slot, table) then return ()
  if env.size < addr + length || (even && addr % 2 == 1) then throw (.violation slot item)
  modify fun t => { t with checked := (slot, table) :: t.checked }

/-- R50: the check of a kern list or a part of a ligature entry when it is reached. -/
def checkSpan (env : ReadEnv) (slot addr length : Nat) (item : CopyIndex) : Reader Unit :=
  if env.size < addr + length then throw (.violation slot item) else return ()

/-- R50: a glyph id is below the glyph count. -/
def checkGlyph (f : FontRecord) (slot g : Nat) (item : CopyIndex) : Reader Unit :=
  if g < f.glyphCount then return () else throw (.violation slot item)

/-! ### Tables (3.3) -/

/-- Joining type (R43). -/
inductive Joining where
  | u | d | r | t
  deriving DecidableEq, Repr

/-- A glyph table entry (R43). -/
structure GlyphProps where
  width      : Nat
  joining    : Joining
  mark       : Bool
  breakAfter : Bool
  preBase    : Bool
  deriving DecidableEq, Repr

def Joining.ofCode : Nat → Joining
  | 0 => .u
  | 1 => .d
  | 2 => .r
  | _ => .t

def GlyphProps.ofWords (w0 w1 : CartWord) : GlyphProps where
  width := w0.toNat % 1024
  joining := Joining.ofCode (w1.toNat % 4)
  mark := hasBit w1.toNat 4
  breakAfter := hasBit w1.toNat 8
  preBase := hasBit w1.toNat 16

/-- R43: the glyph table entry of glyph `g`. -/
def glyphProps (env : ReadEnv) (slot g : Nat) (item : CopyIndex) : Reader GlyphProps := do
  let f ← fontOf env slot item
  if f.glyphTable == 0 then throw (.violation slot item)
  checkGlyph f slot g item
  checkTable env slot .glyph f.glyphTable (2 * f.glyphCount) true item
  let w0 ← readWord (f.glyphTable + 2 * g)
  let w1 ← readWord (f.glyphTable + 2 * g + 1)
  return GlyphProps.ofWords w0 w1

/-- R44: the records of the code map from `addr`, `n` of them left. -/
def searchCodeMap (addr code : Nat) : Nat → Reader (Option Nat)
  | 0 => return none
  | n + 1 => do
    let ws ← readWords addr 4
    let first := pairCode (wordAt ws 0) (wordAt ws 1)
    if first ≤ code ∧ code < first + (wordAt ws 2).toNat then return some ((wordAt ws 3).toNat + (code - first))
    else searchCodeMap (addr + 4) code n

/-- R44, R49: the glyph of a code, or none for a miss. -/
def mapCode (env : ReadEnv) (slot code : Nat) (item : CopyIndex) : Reader (Option Nat) := do
  let f ← fontOf env slot item
  if f.codeMap == 0 || f.codeMapCount == 0 then return none
  checkTable env slot .codeMap f.codeMap (4 * f.codeMapCount) true item
  let hit ← searchCodeMap f.codeMap code f.codeMapCount
  match hit with
  | none => return none
  | some g =>
    checkGlyph f slot g item
    return some g

/-- The forms a form record lists besides the nominal glyph (R45), by their word in the record. -/
inductive Form where
  | initial | medial | final
  deriving DecidableEq, Repr

def Form.word : Form → Nat
  | .initial => 1
  | .medial => 2
  | .final => 3

/-- R45: the value the form table gives for a form of `g`; 0 stands for the nominal glyph. -/
def searchForms (addr g : Nat) (form : Form) : Nat → Reader Nat
  | 0 => return 0
  | n + 1 => do
    let ws ← readWords addr 4
    let nominal := (wordAt ws 0).toNat
    if nominal = g then return (wordAt ws form.word).toNat
    else if g < nominal then return 0
    else searchForms (addr + 4) g form n

/-- R45, R49: a form of glyph `g`. -/
def formOf (env : ReadEnv) (slot g : Nat) (form : Form) (item : CopyIndex) : Reader Nat := do
  let f ← fontOf env slot item
  if f.formTable == 0 || f.formCount == 0 then return g
  checkTable env slot .form f.formTable (4 * f.formCount) false item
  let v ← searchForms f.formTable g form f.formCount
  if v = 0 then return g
  checkGlyph f slot v item
  return v

/-- R46, R47: an index entry, as its entry count and list address; with count 0 the address is not read. -/
def indexEntry (addr : Nat) : Reader (Nat × Nat) := do
  let w0 ← readWord addr
  if w0.toNat / 256 = 0 then return (0, 0)
  let w1 ← readWord (addr + 1)
  return (w0.toNat / 256, pairAddr w0 w1)

/-- R50: every glyph id of a list is below the glyph count. -/
def checkGlyphs (f : FontRecord) (slot : Nat) (item : CopyIndex) : List Nat → Reader Unit
  | [] => return ()
  | g :: rest => do
    checkGlyph f slot g item
    checkGlyphs f slot item rest

/-- R46: the entries of a ligature list from `addr`; the answer is the number of components and the result glyph. -/
def searchLigatures (env : ReadEnv) (f : FontRecord) (slot : Nat) (offered : List Nat) (item : CopyIndex) (addr : Nat) :
    Nat → Reader (Option (Nat × Nat))
  | 0 => return none
  | k + 1 => do
    checkSpan env slot addr 1 item
    let n ← readWord addr
    if n.toNat < 2 ∨ 4 < n.toNat then return none
    else do
      checkSpan env slot addr (n.toNat + 1) item
      let ws ← readWords (addr + 1) n.toNat
      let ids := ws.map BitVec.toNat
      checkGlyphs f slot item ids
      if ids.take (n.toNat - 1) = offered.take (n.toNat - 1) then return some (n.toNat, ids.getD (n.toNat - 1) 0)
      else searchLigatures env f slot offered item (addr + n.toNat + 1) k

/-- R46, R49: the ligature of `g` with the glyphs offered after it. -/
def ligatureOf (env : ReadEnv) (slot g : Nat) (offered : List Nat) (item : CopyIndex) : Reader (Option (Nat × Nat)) := do
  let f ← fontOf env slot item
  if f.ligature == 0 then return none
  checkGlyph f slot g item
  checkTable env slot .ligature f.ligature (2 * f.glyphCount) false item
  let e ← indexEntry (f.ligature + 2 * g)
  searchLigatures env f slot offered item e.2 e.1

/-- A kern adjustment: bits 9-0, two's complement (12.4). -/
def kernValue (w : CartWord) : Int := (BitVec.ofNat 10 w.toNat).toInt

/-- R47: the entries of a kern list from `addr`. -/
def searchKerns (f : FontRecord) (slot right : Nat) (item : CopyIndex) (addr : Nat) : Nat → Reader Int
  | 0 => return 0
  | n + 1 => do
    let ws ← readWords addr 2
    checkGlyph f slot (wordAt ws 0).toNat item
    if (wordAt ws 0).toNat = right then return kernValue (wordAt ws 1)
    else searchKerns f slot right item (addr + 2) n

/-- R47, R49: the adjustment of `left` against `right`. -/
def kernOf (env : ReadEnv) (slot left right : Nat) (item : CopyIndex) : Reader Int := do
  let f ← fontOf env slot item
  if f.kern == 0 then return 0
  checkGlyph f slot left item
  checkTable env slot .kern f.kern (2 * f.glyphCount) false item
  let e ← indexEntry (f.kern + 2 * left)
  if e.1 = 0 then return 0
  checkSpan env slot e.2 (2 * e.1) item
  searchKerns f slot right item e.2 e.1

/-- R48, R49: the anchor entry of `g`, none when it is missing. -/
def anchorOf (env : ReadEnv) (slot g : Nat) (item : CopyIndex) : Reader (Option (Int × Int)) := do
  let f ← fontOf env slot item
  if f.anchor == 0 then return none
  checkGlyph f slot g item
  checkTable env slot .anchor f.anchor (2 * f.glyphCount) true item
  let x ← readWord (f.anchor + 2 * g)
  let y ← readWord (f.anchor + 2 * g + 1)
  if x = 0 ∧ y = 0 then return none else return some (x.toInt, y.toInt)

end Sys2Proof.Machine
end

