-- ==== Sys2Proof/Machine/Shaping.lean ====
section
/-! DEFINITION. The shaping of one own segment (4.2) and of one box segment (4.3), as readers of the cartridge. -/

namespace Sys2Proof.Machine

/-- A character of the segment being shaped, with its stamp. -/
structure ShapeChar where
  index   : CopyIndex
  code    : Nat
  slot    : Option Nat
  size    : Nat
  setSize : Nat
  deriving DecidableEq, Repr

/-- What a shaping operation works on. `softs` are the SOFT HYPHEN items inside the segment. -/
structure ShapeInput where
  start : CopyIndex
  cls   : ScriptClass
  dflt  : Nat
  chars : List ShapeChar
  softs : List CopyIndex
  deriving DecidableEq, Repr

/-- A glyph record in the making; `joins` says it joins its successor (R62, R68). -/
structure Work where
  g     : GlyphRecord
  joins : Bool
  deriving DecidableEq, Repr

/-- What a shaping operation yields: records in shaped order, opportunities with no prefix yet, the elongation glyph and its
width in units, and the characters that missed. -/
structure ShapeResult where
  glyphs     : List GlyphRecord
  opps       : List Opportunity
  elongGlyph : Nat
  elongUnits : Nat
  misses     : List CopyIndex
  deriving DecidableEq, Repr

/-- The place of an index in the segment. -/
def ShapeInput.key (inp : ShapeInput) (i : CopyIndex) : Nat := distance inp.start i

/-- A SOFT HYPHEN item lies between two cluster indices, in a class whose soft hyphens count (R64, R65, R67). -/
def ShapeInput.softBetween (inp : ShapeInput) (a b : CopyIndex) : Bool :=
  inp.softs.any (fun h => min (inp.key a) (inp.key b) < inp.key h && inp.key h < max (inp.key a) (inp.key b))

/-! ### Mapping (R61) -/

def mapChar (env : ReadEnv) (inp : ShapeInput) (c : ShapeChar) : Reader Work := do
  match env.resolve c.slot inp.dflt with
  | none => throw (.unusable c.index)
  | some slot =>
    let hit ← mapCode env slot c.code c.index
    let f ← fontOf env slot c.index
    let glyph := hit.getD f.missing
    let p ← glyphProps env slot glyph c.index
    return ⟨⟨glyph, slot, c.size, c.setSize, 0, 0, 0, c.index, p.mark, hit.isNone, false, false⟩, false⟩

def mapChars (env : ReadEnv) (inp : ShapeInput) : List ShapeChar → Reader (List Work)
  | [] => return []
  | c :: rest => do
    let w ← mapChar env inp c
    let ws ← mapChars env inp rest
    return w :: ws

/-- The glyph table entries a step needs, read for each glyph in the order they stand. -/
def readProps (env : ReadEnv) : List Work → Reader (List (Work × GlyphProps))
  | [] => return []
  | w :: rest => do
    let p ← glyphProps env w.g.slot w.g.glyph w.g.cluster
    let ws ← readProps env rest
    return (w, p) :: ws

/-! ### Joining (R62, R63) -/

/-- R62: whether each glyph joins its predecessor and its successor; `prev` is the type of the nearest non-T glyph before. -/
def joinsOf (prev : Option Joining) : List Joining → List (Bool × Bool)
  | [] => []
  | j :: rest =>
    if j = .t then (false, false) :: joinsOf prev rest
    else
      let next := rest.find? (fun x => x != .t)
      let back := prev = some .d ∧ (j = .d ∨ j = .r)
      let on := j = .d ∧ (next = some .d ∨ next = some .r)
      (decide back, decide on) :: joinsOf (some j) rest

/-- R62: the form the joins ask for, none for the isolated form. -/
def formFor : Bool × Bool → Option Form
  | (true, true) => some .medial
  | (true, false) => some .final
  | (false, true) => some .initial
  | (false, false) => none

/-- R62, R63: forms are looked up and the first `left` joints are flagged. -/
def applyForms (env : ReadEnv) : Nat → List (Work × (Bool × Bool)) → Reader (List Work)
  | _, [] => return []
  | left, (w, j) :: rest => do
    let glyph ← match formFor j with
      | some form => formOf env w.g.slot w.g.glyph form w.g.cluster
      | none => pure w.g.glyph
    let flag := j.2 && 0 < left
    let ws ← applyForms env (if j.2 then left - 1 else left) rest
    return ⟨{ w.g with glyph := glyph, elong := flag }, j.2⟩ :: ws

/-- R63. -/
def maxElongationPoints : Nat := 15

def joinStep (env : ReadEnv) (inp : ShapeInput) (ws : List Work) : Reader (List Work) := do
  if inp.cls = .rj then
    let ps ← readProps env ws
    applyForms env maxElongationPoints (ws.zip (joinsOf none (ps.map (·.2.joining))))
  else return ws

/-! ### Ligatures (R64) -/

/-- R64: at most three non-mark glyphs after `w`, up to the first of another slot or set size or beyond a soft hyphen. A mark is
passed over whatever its slot and set size (DESIGN CHOICE, log entry 16). -/
def offeredAfter (inp : ShapeInput) (w : Work) (left : Nat) : List (Work × GlyphProps) → List Nat
  | [] => []
  | (x, p) :: rest =>
    if p.mark then offeredAfter inp w left rest
    else if left = 0 ∨ x.g.slot ≠ w.g.slot ∨ x.g.setSize ≠ w.g.setSize ∨
        (inp.cls ≠ .rj ∧ inp.softBetween w.g.cluster x.g.cluster = true) then []
    else x.g.glyph :: offeredAfter inp w (left - 1) rest

/-- R64: `n` more components are taken: the marks between them, the last component, and what stands after it. -/
def takeComponents : Nat → Work → List (Work × GlyphProps) → List (Work × GlyphProps) × Work × List (Work × GlyphProps)
  | 0, last, rest => ([], last, rest)
  | _ + 1, last, [] => ([], last, [])
  | n + 1, last, (x, p) :: rest =>
    if p.mark then
      let r := takeComponents (n + 1) last rest
      ((x, p) :: r.1, r.2)
    else takeComponents n x rest

/-- R64: the walk, with at most `fuel` glyphs still to visit. A result keeps the missing flag of its first component (DESIGN CHOICE,
log entry 16). -/
def ligateWalk (env : ReadEnv) (inp : ShapeInput) : Nat → List (Work × GlyphProps) → Reader (List Work)
  | 0, ws => return ws.map (·.1)
  | _, [] => return []
  | fuel + 1, (w, p) :: rest => do
    if p.mark then
      let ws ← ligateWalk env inp fuel rest
      return w :: ws
    else
      let hit ← ligatureOf env w.g.slot w.g.glyph (offeredAfter inp w 3 rest) w.g.cluster
      match hit with
      | none =>
        let ws ← ligateWalk env inp fuel rest
        return w :: ws
      | some (n, result) =>
        let r := takeComponents (n - 1) w rest
        let ws ← ligateWalk env inp fuel r.2.2
        return ⟨{ w.g with glyph := result, elong := r.2.1.g.elong }, r.2.1.joins⟩ :: r.1.map (·.1) ++ ws

def ligateStep (env : ReadEnv) (inp : ShapeInput) (ws : List Work) : Reader (List Work) := do
  let ps ← readProps env ws
  ligateWalk env inp ps.length ps

/-! ### Pre-base glyphs (R65) -/

/-- R65: `x` is put directly before the nearest glyph of the reversed run that is neither a mark nor pre-base, unless a soft
hyphen lies between; none when there is no such glyph. The run is given and answered nearest first. -/
def putBefore (inp : ShapeInput) (x : Work × GlyphProps) :
    List (Work × GlyphProps) → Option (List (Work × GlyphProps))
  | [] => none
  | (y, p) :: rest =>
    if p.mark || p.preBase then (putBefore inp x rest).map ((y, p) :: ·)
    else if inp.softBetween y.g.cluster x.1.g.cluster then none
    else some ((y, p) :: x :: rest)

/-- R65, over the glyphs in logical order; `done` is the run so far, nearest first. -/
def reorder (inp : ShapeInput) : List (Work × GlyphProps) → List (Work × GlyphProps) → List (Work × GlyphProps)
  | done, [] => done.reverse
  | done, x :: rest =>
    if x.2.preBase then reorder inp ((putBefore inp x done).getD (x :: done)) rest else reorder inp (x :: done) rest

def preBaseStep (env : ReadEnv) (inp : ShapeInput) (ws : List Work) : Reader (List Work) := do
  if inp.cls = .lr then
    let ps ← readProps env ws
    return (reorder inp [] ps).map (·.1)
  else return ws

/-! ### Marks (R66) -/

/-- R66: a mark centred over its base. -/
def centred (base mark : GlyphProps) : Int := ((base.width : Int) - mark.width).tdiv 2

/-- R66: marks are placed on their bases. A violation in the base's anchor entry names the mark's character (DESIGN CHOICE, log
entry 16). -/
def placeMarks (env : ReadEnv) : Option (Work × GlyphProps) → List (Work × GlyphProps) → Reader (List Work)
  | _, [] => return []
  | base, (w, p) :: rest => do
    if p.mark then
      let at0 ← match base with
        | none => pure (0, 0)
        | some (b, bp) => do
          let ba ← anchorOf env b.g.slot b.g.glyph w.g.cluster
          let ma ← anchorOf env w.g.slot w.g.glyph w.g.cluster
          match ba, ma with
          | some x, some y => pure (x.1 - y.1, x.2 - y.2)
          | _, _ => pure (centred bp p, 0)
      let ws ← placeMarks env base rest
      return ⟨{ w.g with dx := at0.1, dy := at0.2, mark := true }, w.joins⟩ :: ws
    else
      let ws ← placeMarks env (some (w, p)) rest
      return ⟨{ w.g with dx := 0, dy := 0, mark := false }, w.joins⟩ :: ws

def markStep (env : ReadEnv) (ws : List Work) : Reader (List Work) := do
  let ps ← readProps env ws
  placeMarks env none ps

/-! ### Advances and kerns (R67) -/

/-- R67: a pair is kerned. -/
def kernsPair (inp : ShapeInput) (l : Work × GlyphProps) (r : Work) : Bool :=
  l.1.g.slot == r.g.slot && !l.2.breakAfter && (inp.cls == .rj || !inp.softBetween l.1.g.cluster r.g.cluster)

def setAdvances (env : ReadEnv) (inp : ShapeInput) : List (Work × GlyphProps) → Reader (List Work)
  | [] => return []
  | (w, p) :: rest => do
    let advance ←
      if p.mark then pure 0
      else match rest.find? (fun x => !x.2.mark) with
        | none => pure p.width
        | some r =>
          if kernsPair inp (w, p) r.1 then do
            let k ← kernOf env w.g.slot w.g.glyph r.1.g.glyph w.g.cluster
            pure ((p.width : Int) + k).toNat
          else pure p.width
    let ws ← setAdvances env inp rest
    return ⟨{ w.g with advance := advance }, w.joins⟩ :: ws

def advanceStep (env : ReadEnv) (inp : ShapeInput) (ws : List Work) : Reader (List Work) := do
  let ps ← readProps env ws
  setAdvances env inp ps

/-! ### Break opportunities (R68) -/

/-- A candidate of R68: its split, its kind and, for a soft hyphen, the item. -/
structure Candidate where
  split : Nat
  soft  : Option CopyIndex
  deriving DecidableEq, Repr

/-- R68: the soft hyphen candidates. -/
def softCandidates (inp : ShapeInput) (ws : List Work) : List Candidate :=
  if inp.cls = .rj then []
  else inp.softs.map (fun h => ⟨ws.countP (fun w => inp.key w.g.cluster < inp.key h), some h⟩)

/-- R68: the break-after candidates; `i` is the place of the first glyph given. -/
def breakCandidates (cls : ScriptClass) : Nat → List (Work × GlyphProps) → List Candidate
  | _, [] => []
  | i, (w, p) :: rest =>
    if !p.mark && p.breakAfter && !(cls == .rj && w.joins) then
      ⟨i + 1 + (rest.takeWhile (fun x => x.2.mark)).length, none⟩ :: breakCandidates cls (i + 1) rest
    else breakCandidates cls (i + 1) rest

/-- R68: candidates in order of split; of one split, break-after first, and of two SOFT HYPHENs the first in copy order (DESIGN
CHOICE, log entry 16). -/
def candidateInsert (c : Candidate) : List Candidate → List Candidate
  | [] => [c]
  | x :: rest =>
    if x.split < c.split ∨ (x.split = c.split ∧ x.soft = none) then x :: candidateInsert c rest else c :: x :: rest

def candidateOrder (cs : List Candidate) : List Candidate := cs.foldr candidateInsert []

/-- R68: the lowest place of a cluster index among records. -/
def lowestKey (inp : ShapeInput) (ws : List Work) : Nat :=
  match ws.map (fun w => inp.key w.g.cluster) with
  | [] => 0
  | k :: rest => rest.foldl min k

/-- R68: a candidate that the first two cases do not drop. -/
def splitsCleanly (inp : ShapeInput) (ws : List Work) (k : Nat) : Bool :=
  k != 0 && k < ws.length && (ws.take k).all (fun w => inp.key w.g.cluster < lowestKey inp (ws.drop k))

/-- R68, third case: a candidate with the split of an earlier one is dropped. -/
def dropRepeats : List Nat → List Candidate → List Candidate
  | _, [] => []
  | seen, c :: rest => if seen.contains c.split then dropRepeats seen rest else c :: dropRepeats (c.split :: seen) rest

/-- R68. -/
def maxOpportunities : Nat := 6

/-- R73: the place of the last record of the first part whose joining type is not T, when it carries a flag. The joining type of a
ligature result is that of its own glyph table entry (R60), though R64 keeps it out of the later steps (DESIGN CHOICE, log entry
16). -/
def clearPlace (ps : List (Work × GlyphProps)) (k : Nat) : Option Nat :=
  match ((ps.take k).zipIdx.filter (fun x => x.1.2.joining != .t)).getLast? with
  | some x => if x.1.1.g.elong then some x.2 else none
  | none => none

def recordOpps (env : ReadEnv) (inp : ShapeInput) (ps : List (Work × GlyphProps)) : List Candidate → Reader (List Opportunity)
  | [] => return []
  | c :: rest => do
    let ws := ps.map (·.1)
    let clear := clearPlace ps c.split
    let flags := (ws.take c.split).countP (fun w => w.g.elong)
    let hyphen ← match c.soft, ws[c.split - 1]? with
      | some h, some w => do
        let f ← fontOf env w.g.slot w.g.cluster
        let p ← glyphProps env w.g.slot f.hyphen w.g.cluster
        pure (some (HyphenGlyph.mk f.hyphen p.width h))
      | _, _ => pure none
    let more ← recordOpps env inp ps rest
    return {
      kind := if c.soft.isSome then .softHyphen else .breakAfter
      split := c.split
      offset := lowestKey inp (ws.drop c.split)
      points := if clear.isSome then flags - 1 else flags
      hyphen := hyphen
      clearAt := clear
      width := 0 } :: more

def oppStep (env : ReadEnv) (inp : ShapeInput) (ws : List Work) : Reader (List Opportunity) := do
  let ps ← readProps env ws
  let cs := candidateOrder (softCandidates inp ws ++ breakCandidates inp.cls 0 ps)
  let kept := dropRepeats [] (cs.filter (fun c => splitsCleanly inp ws c.split))
  recordOpps env inp ps (kept.take maxOpportunities)

/-! ### A whole operation -/

/-- R70, R86: the elongation glyph of the slot of the first glyph record, and its width in units; none outside RJ. -/
def elongationGlyph (env : ReadEnv) (inp : ShapeInput) (gs : List GlyphRecord) : Reader (Nat × Nat) := do
  match inp.cls, gs with
  | .rj, g :: _ =>
    let f ← fontOf env g.slot g.cluster
    let p ← glyphProps env g.slot f.elongation g.cluster
    return (f.elongation, p.width)
  | _, _ => return (0, 0)

/-- The steps of 4.2 in order, then what the measure unit needs for E (R70). -/
def shapeSegment (env : ReadEnv) (inp : ShapeInput) : Reader ShapeResult := do
  let mapped ← mapChars env inp inp.chars
  let joined ← joinStep env inp mapped
  let ligated ← ligateStep env inp joined
  let ordered ← preBaseStep env inp ligated
  let marked ← markStep env ordered
  let advanced ← advanceStep env inp marked
  let opps ← oppStep env inp advanced
  let glyphs := advanced.map (·.g)
  modify fun st => { st with shaped := some glyphs }
  let e ← elongationGlyph env inp glyphs
  return ⟨glyphs, opps, e.1, e.2, (mapped.filter (·.g.missing)).map (·.g.cluster)⟩

/-- R71: the glyph records of a box segment, one for each character, in copy order. -/
def shapeBox (env : ReadEnv) (start : CopyIndex) (chars : List ShapeChar) : Reader ShapeResult := do
  if !env.slotUsable 0 then throw (.unusable start)
  let f ← fontOf env 0 start
  let p ← glyphProps env 0 f.missing start
  let glyphs := chars.map (fun c =>
    (⟨f.missing, 0, c.size, c.setSize, p.width, 0, 0, c.index, false, true, false, false⟩ : GlyphRecord))
  modify fun st => { st with shaped := some glyphs }
  return ⟨glyphs, [], 0, 0, []⟩

end Sys2Proof.Machine
end

