-- ==== Sys2Proof/Machine/Shaper.lean ====
section
/-! DEFINITION. The shaper's work on the station's state: the glyph store, read requests, operations in flight, completion,
and the cut at a break (chapters 3 and 4). -/

namespace Sys2Proof.Machine

/-! ### The glyph store (R58, R59) -/

/-- R58. -/
def storeSize : Nat := 768

/-- R35, R72: how many own segment records, and how many box segment records, there are. -/
def recordLimit : Nat := 96

def glyphTotal (gs : List (List GlyphRecord)) : Nat := (gs.map List.length).sum

/-- Glyph records held. -/
def Shaper.held (h : Shaper) : Nat := glyphTotal (h.records.map (·.glyphs)) + glyphTotal (h.boxes.map (·.glyphs))

def reservedBy (op : Option Operation) : Nat := match op with | some o => o.reserved | none => 0

/-- Glyph records reserved. -/
def Shaper.reserved (h : Shaper) : Nat := reservedBy h.op + reservedBy h.boxOp

/-- R58: the store's free count. -/
def Shaper.free (h : Shaper) : Nat := storeSize - (h.held + h.reserved)

/-- R59: the index lies in a DECIDED or SENT line. -/
def TallyUnit.inHandSpan (t : TallyUnit) (i : CopyIndex) : Bool := t.inHand.any (fun r => r.spans i)

/-- R59: the records held for segments that do not start in a DECIDED or SENT line. -/
def State.unfreeable (s : State) : Nat :=
  glyphTotal ((s.shaper.records.filter (fun r => !s.tally.inHandSpan r.start)).map (·.glyphs)) +
    glyphTotal ((s.shaper.boxes.filter (fun b => !s.tally.inHandSpan b.start)).map (·.glyphs))

/-- R59: a waiting segment that cannot be held raises GLYPH STORE FULL. -/
def checkStoreFull (start : CopyIndex) (asked : Nat) (s : State) : State :=
  if storeSize < s.unfreeable + asked then raise (Cond.at .glyphStoreFull start none) s else s

/-- R59, R71: the check on whatever waits for store room, an own record's first and then a box build's (DESIGN CHOICE, log entry
16). -/
def checkWaitingStore (s : State) : State :=
  let s1 := match s.shaper.records.find? (fun r => r.state == .storeWait) with
    | some r => checkStoreFull r.start r.charCount s
    | none => s
  match s1.shaper.boxes.find? (fun b => b.state == .storeWait) with
  | some b => checkStoreFull b.start b.charCount s1
  | none => s1

/-! ### The cartridge port (R40) -/

def CartridgePort.request (p : CartridgePort) (who : Requester) (addr : Nat) : CartridgePort :=
  { p with waiting := p.waiting ++ [⟨who, addr⟩] }

/-- R40: when the port is idle and a request waits, the oldest starts. -/
def CartridgePort.startNext (p : CartridgePort) : CartridgePort :=
  match p.outstanding, p.waiting with
  | none, r :: rest => { p with outstanding := some ⟨r.who, r.addr, false⟩, waiting := rest }
  | _, _ => p

def startNextRead (s : State) : State := s.withCartridge s.cartridge.startNext

/-- R51, R52: a slot becomes unusable. -/
def CartridgePort.markUnusable (p : CartridgePort) (slot : Nat) : CartridgePort :=
  { p with usable := p.usable.set slot false }

def State.readEnv (s : State) : ReadEnv := ⟨s.cartridge.size, s.cartridge.directory, s.cartridge.usable⟩

/-! ### What the operations work on -/

def toShapeChar (p : CopyIndex × Item) : Option ShapeChar :=
  match p.2.body, p.2.stamp with
  | .character code, some st => some ⟨p.1, code, st.slot, st.size, st.setSize⟩
  | _, _ => none

/-- The characters of a copy range. -/
def Window.chars (w : Window) (start : CopyIndex) (count : Nat) : List ShapeChar :=
  ((w.itemsFrom start).take count).filterMap toShapeChar

/-- The SOFT HYPHEN items of a copy range. -/
def Window.softHyphens (w : Window) (start : CopyIndex) (count : Nat) : List CopyIndex :=
  (((w.itemsFrom start).take count).filter (fun p => p.2.body == .softHyphen)).map (·.1)

def Splitter.defaultSlot (p : Splitter) (claim : Nat) : Nat := match p.claims[claim]? with | some c => c.slot | none => 0

def State.shapeInput (s : State) (r : SegRecord) : ShapeInput :=
  ⟨r.start, r.cls, s.splitter.defaultSlot r.claim, s.window.chars r.start r.itemCount,
    s.window.softHyphens r.start r.itemCount⟩

def Shaper.record? (h : Shaper) (start : CopyIndex) : Option SegRecord := h.records.find? (fun r => r.start == start)

def Shaper.box? (h : Shaper) (start : CopyIndex) : Option BoxRecord := h.boxes.find? (fun b => b.start == start)

def Shaper.mapRecord (h : Shaper) (start : CopyIndex) (f : SegRecord → SegRecord) : Shaper :=
  { h with records := h.records.map (fun r => if r.start == start then f r else r) }

/-- The first box segment record that `p` names is rewritten. -/
def Shaper.mapBox (h : Shaper) (p : BoxRecord → Bool) (f : BoxRecord → BoxRecord) : Shaper :=
  { h with boxes := changeFirst p f h.boxes }

/-- The record that the box build on `start` works on; READY records of an earlier build may share its start index (R72). -/
def Shaper.building? (h : Shaper) (start : CopyIndex) : Option BoxRecord :=
  h.boxes.find? (fun b => b.start == start && b.state == .building)

/-- How far the shaping operation has come on the words it has received. -/
def State.shapingProgress (s : State) : Option (Operation × SegRecord × Except ReadStop ShapeResult × ReadState) :=
  match s.shaper.op with
  | none => none
  | some op => (s.shaper.record? op.start).map (fun r =>
      let x := runReader (shapeSegment s.readEnv (s.shapeInput r)) op.words
      (op, r, x.1, x.2))

/-- How far the box build has come on the words it has received. -/
def State.boxProgress (s : State) : Option (Operation × BoxRecord × Except ReadStop ShapeResult × ReadState) :=
  match s.shaper.boxOp with
  | none => none
  | some op => (s.shaper.building? op.start).map (fun b =>
      let x := runReader (shapeBox s.readEnv b.start (s.window.chars b.start b.itemCount)) op.words
      (op, b, x.1, x.2))

/-! ### The measure unit (R80) -/

/-- R80, R81: a measurement begins and runs over the segment's glyph records. -/
def MeasureUnit.begin (u : MeasureUnit) (start : CopyIndex) (gs : List GlyphRecord) : MeasureUnit :=
  { u with segment := some start, numerator := numeratorOf gs, measured := gs.length }

/-- R80: the idle unit takes the operation that has reached its last step. R80 allows either order when both have; the shaping
operation's goes first (DESIGN CHOICE, log entry 16). -/
def startMeasure (s : State) : State :=
  if s.measure.segment.isSome then s
  else
    match s.shapingProgress.bind (fun x => x.2.2.2.shaped.map (fun gs => (x.1.start, gs))) with
    | some (start, gs) => s.withMeasure (s.measure.begin start gs)
    | none =>
      match s.boxProgress.bind (fun x => x.2.2.2.shaped.map (fun gs => (x.1.start, gs))) with
      | some (start, gs) => s.withMeasure (s.measure.begin start gs)
      | none => s

/-- R80: the measure unit once a measurement has completed. R80 returns the segment to none and is silent on the other two fields,
which go to 0 here (DESIGN CHOICE, log entry 16); the next measurement sets all three. -/
def MeasureUnit.idle (u : MeasureUnit) : MeasureUnit := { u with segment := none, numerator := 0, measured := 0 }

/-! ### Going on with an operation (R40, R52, R53) -/

/-- R52: the shaping operation starts again from its first character; a request it has in the port is abandoned. -/
def restartShaping (s : State) : State :=
  match s.shaper.op with
  | none => s
  | some op =>
    { s with
      cartridge := s.cartridge.abandon .shaper
      measure := s.measure.drop op.start
      shaper := { s.shaper with op := some { op with words := [] } } }

/-- R53, last row: the box build has used the slot just marked, since it started. The answer is the first character of its box
segment, which its CARTRIDGE UNUSABLE names (both DESIGN CHOICE, log entry 16). -/
def boxHasUsed (s : State) (slot : Nat) : Option CopyIndex :=
  match s.boxProgress with
  | some (op, _, _, st) => if st.used.contains slot then some op.start else none
  | none => none

/-- R53, last row: the shaping operation has used the slot just marked, since it started or was last restarted (DESIGN CHOICE, log
entry 16). -/
def shapingHasUsed (s : State) (slot : Nat) : Bool :=
  match s.shapingProgress with
  | some (_, _, _, st) => st.used.contains slot
  | none => false

/-- R52: a violation in the shaping operation that works on `start`. -/
def shapingViolation (start : CopyIndex) (slot : Nat) (item : CopyIndex) (s : State) : State :=
  let used := boxHasUsed s slot
  let s1 := raise ⟨.cartridgeAddress, item, start, none, none, some start⟩ (s.withCartridge (s.cartridge.markUnusable slot))
  let s2 := match used with
    | some b => raise (Cond.at .cartridgeUnusable b none) s1
    | none => s1
  restartShaping s2

/-- The shaping operation goes as far as the words it has received allow: it asks for its next word, restarts after a
violation (each marks a further slot, so `fuel` bounds the restarts), or ends in CARTRIDGE UNUSABLE (R51). -/
def resumeShaping : Nat → State → State
  | 0, s => s
  | fuel + 1, s =>
    match s.shapingProgress with
    | none => s
    | some (op, _, .error (.violation slot item), _) => resumeShaping fuel (shapingViolation op.start slot item s)
    | some (_, _, .error (.unusable item), _) => raise (Cond.at .cartridgeUnusable item none) s
    | some (_, _, .error (.need addr), _) => s.withCartridge (s.cartridge.request .shaper addr)
    | some (_, _, .ok _, _) => s

/-- One restart for each of the 16 slots, and the run that finds none. -/
def restartFuel : Nat := 18

/-- The box build goes as far as its words allow (R52, R71). A shaping operation that its violation restarts goes first, with what
it raises, and the box's CARTRIDGE UNUSABLE follows (DESIGN CHOICE, log entry 16). -/
def resumeBox (s : State) : State :=
  match s.boxProgress with
  | none => s
  | some (op, _, .error (.violation slot item), _) =>
    let again := shapingHasUsed s slot
    let s1 := raise ⟨.cartridgeAddress, item, op.start, none, none, some op.start⟩
      (s.withCartridge (s.cartridge.markUnusable slot))
    let s2 := if again then resumeShaping restartFuel (restartShaping s1) else s1
    raise (Cond.at .cartridgeUnusable item none) s2
  | some (_, _, .error (.unusable item), _) => raise (Cond.at .cartridgeUnusable item none) s
  | some (_, _, .error (.need addr), _) => s.withCartridge (s.cartridge.request .box addr)
  | some (_, _, .ok _, _) => s

/-! ### Reservations (R57 to R59, R71) -/

/-- R57, R58: a granted record enters SHAPING and its operation starts. -/
def beginShaping (r : SegRecord) (s : State) : State :=
  resumeShaping restartFuel (s.withShaper { s.shaper.mapRecord r.start (fun x => { x with state := .shaping }) with
    op := some ⟨r.start, r.charCount, []⟩ })

/-- R71: a granted box build starts. -/
def beginBox (b : BoxRecord) (s : State) : State :=
  resumeBox (s.withShaper { s.shaper.mapBox (fun x => x == b) (fun x => { x with state := .building }) with
    boxOp := some ⟨b.start, b.charCount, []⟩ })

def grantShaping (s : State) : State :=
  match s.shaper.records.find? (fun r => r.state == .storeWait) with
  | some r => if s.working ∧ s.shaper.op = none ∧ r.charCount ≤ s.shaper.free then beginShaping r s else s
  | none => s

def grantBox (s : State) : State :=
  match s.shaper.boxes.find? (fun b => b.state == .storeWait) with
  | some b => if s.working ∧ s.shaper.boxOp = none ∧ b.charCount ≤ s.shaper.free then beginBox b s else s
  | none => s

/-- R58, R59: waiting reservations that the free count covers are granted. When both wait, a free value says which is
served first. -/
def grantStore (s : State) : State :=
  if s.shaper.records.any (fun r => r.state == .storeWait) && s.shaper.boxes.any (fun b => b.state == .storeWait) then
    let s1 := s.withChoices (s.choices + 1)
    if Config.boxFirst s.choices then grantShaping (grantBox s1) else grantBox (grantShaping s1)
  else grantBox (grantShaping s)

/-- R57: the shaper can start an operation. -/
def State.canStartShaping (s : State) : Bool :=
  s.working && s.shaper.op.isNone && !s.shaper.records.any (fun r => r.state == .storeWait) && !s.port.stalled .shaper

/-- R57, R59: the shaper takes the WAITING record with the lowest start index. -/
def startShaping (s : State) : State :=
  if s.canStartShaping then
    match s.shaper.records.find? (fun r => r.state == .waiting) with
    | none => s
    | some r =>
      if r.charCount ≤ s.shaper.free then beginShaping r s
      else checkStoreFull r.start r.charCount
        (s.withShaper (s.shaper.mapRecord r.start (fun x => { x with state := .storeWait })))
  else s

/-- Box segment records in copy index order (R72), the newest first of one start index. -/
def insertBox (b : BoxRecord) : List BoxRecord → List BoxRecord
  | [] => [b]
  | x :: rest => if atOrAfter x.start b.start then b :: x :: rest else x :: insertBox b rest

/-- R72: the box builder can start a build. -/
def State.canStartBox (s : State) : Bool :=
  s.working && s.shaper.boxOp.isNone && s.shaper.boxes.all (fun b => b.state == .ready) &&
    s.shaper.boxes.length < recordLimit && !s.port.stalled .boxBuilder

/-- R71, R72: the box builder takes the next box segment of an uncovered span, in a free record. READY records of the same start
index stay (log entry 12). -/
def startBox (s : State) : State :=
  if s.canStartBox then
    match s.shaper.plan with
    | [] => s
    | p :: rest =>
      let b : BoxRecord := ⟨p.start, p.itemCount, p.charCount, p.level, p.continues, 0, [], false, .storeWait⟩
      let s1 := s.withShaper { s.shaper with plan := rest, boxes := insertBox b s.shaper.boxes }
      if b.charCount ≤ s1.shaper.free then beginBox b s1 else checkStoreFull b.start b.charCount s1
  else s

/-! ### Completion (R70, R71, R72) -/

def Opportunity.toTally (o : Opportunity) : TallyOpp := ⟨o.kind, o.offset, o.points, o.width⟩

/-- R70: the MEASURE frame of an own segment, from its stored figures. -/
def SegRecord.measureFrame (p : BusPort) (r : SegRecord) : Frame :=
  p.frame .measure (MeasureMsg.encode ⟨r.start, r.itemCount, r.level, r.width, r.elongWidth, r.continues, r.elongCount,
    r.opps.map Opportunity.toTally⟩)

/-- R71: the MEASURE frame of a box segment. -/
def BoxRecord.measureFrame (p : BusPort) (b : BoxRecord) : Frame :=
  p.frame .measure (MeasureMsg.encode ⟨b.start, b.itemCount, b.level, b.width, 0, b.continues, 0, []⟩)

/-- R70: an own segment's MEASURE is handed over; MEASURE queued says whether it waits. -/
def publishRecord (r : SegRecord) (s : State) : State :=
  let s1 := handOver .shaper (r.measureFrame s.port) s
  s1.withShaper (s1.shaper.mapRecord r.start (fun x => { x with measureQueued := !s1.port.stalled .shaper }))

/-- R72: a box segment's MEASURE is handed over. -/
def publishBox (b : BoxRecord) (s : State) : State :=
  let s1 := handOver .boxBuilder (b.measureFrame s.port) s
  s1.withShaper (s1.shaper.mapBox (fun x => x == b) (fun x => { x with measureQueued := !s1.port.stalled .boxBuilder }))

/-- R70, R83, R86: the record as its operation leaves it, `n` the numerator the measure unit holds. -/
def SegRecord.completed (r : SegRecord) (res : ShapeResult) (n : Nat) : SegRecord :=
  { r with
    state := .ready
    glyphs := res.glyphs
    opps := res.opps.map (fun o => { o with width := prefixWidth res.glyphs o.split o.hyphen })
    elongCount := res.glyphs.countP (·.elong)
    width := roundHalfUp n
    elongWidth := match r.cls, res.glyphs with | .rj, g :: _ => unitStepsNat res.elongUnits g.setSize | _, _ => 0
    elongGlyph := res.elongGlyph
    missesReported := true }

/-- R61: GLYPH MISSING for each character that missed. -/
def raiseMisses (items : List CopyIndex) (s : State) : State :=
  items.foldl (fun t i => raise (Cond.at .glyphMissing i none) t) s

/-- R70: the measure figures of the shaping operation are ready and it completes. -/
def completeShaping (s : State) : State :=
  if s.working then
    match s.shapingProgress with
    | some (op, r, .ok res, _) =>
      if s.measure.segment = some op.start then
        let done := r.completed res s.measure.numerator
        let s1 := { s with
          measure := s.measure.idle
          shaper := { s.shaper.mapRecord op.start (fun _ => done) with op := none } }
        publishRecord done (if r.missesReported then s1 else raiseMisses res.misses s1)
      else s
    | _ => s
  else s

/-- R71, R72: the box build completes. -/
def completeBox (s : State) : State :=
  if s.working then
    match s.boxProgress with
    | some (op, b, .ok res, _) =>
      if s.measure.segment = some op.start then
        let done := { b with state := .ready, glyphs := res.glyphs, width := roundHalfUp s.measure.numerator }
        publishBox done { s with
          measure := s.measure.idle
          shaper := { s.shaper with boxes := insertBox done (s.shaper.boxes.erase b), boxOp := none } }
      else s
    | _ => s
  else s

/-! ### Own segment records -/

/-- Own segment records in copy index order (R35). -/
def insertRecord (r : SegRecord) : List SegRecord → List SegRecord
  | [] => [r]
  | x :: rest => if atOrAfter x.start r.start then r :: x :: rest else x :: insertRecord r rest

/-- R74: a free record goes to the pending remainder. -/
def placeRemainder (s : State) : State :=
  match s.shaper.remainder with
  | some r =>
    if s.shaper.records.length < recordLimit then
      s.withShaper { s.shaper with remainder := none, records := insertRecord r s.shaper.records }
    else s
  | none => s

/-! ### The cut at a break (R73, R74) -/

/-- R73: the hyphen glyph record appended at the end of a first part. It is no mark, whatever its glyph table entry says (DESIGN
CHOICE, log entry 16). -/
def hyphenRecord (h : HyphenGlyph) (last : GlyphRecord) : GlyphRecord :=
  ⟨h.glyph, last.slot, last.size, last.setSize, h.width, 0, 0, h.index, false, false, true, false⟩

/-- R73: the glyph records of the first part. -/
def firstPartGlyphs (gs : List GlyphRecord) (o : Opportunity) : List GlyphRecord :=
  let kept := gs.take o.split
  let cleared := match o.clearAt with
    | some i => kept.modify i (fun g => { g with elong := false })
    | none => kept
  match o.hyphen, kept.getLast? with
  | some h, some last => cleared ++ [hyphenRecord h last]
  | _, _ => cleared

/-- R73: the record of the first part; `chars` counts its characters. -/
def SegRecord.firstPart (r : SegRecord) (o : Opportunity) (chars : Nat) (line : LineNumber) : SegRecord :=
  { r with
    glyphs := firstPartGlyphs r.glyphs o
    itemCount := o.offset
    endIdx := r.start + BitVec.ofNat 16 o.offset - 1
    charCount := chars
    continues := false
    elongCount := o.points
    width := o.width
    split := some ⟨r.endIdx, r.itemCount, r.charCount, r.continues, line⟩
    cutLine := some line }

/-- R74: the record of the remainder. -/
def SegRecord.remainderOf (r : SegRecord) (o : Opportunity) (chars : Nat) : SegRecord :=
  { start := r.start + BitVec.ofNat 16 o.offset, endIdx := r.endIdx, charCount := r.charCount - chars,
    itemCount := r.itemCount - o.offset, claim := r.claim, cls := r.cls, level := r.level, continues := r.continues,
    state := .waiting, opps := [], elongCount := 0, glyphs := [], width := 0, elongWidth := 0, elongGlyph := 0,
    measureQueued := false, missesReported := r.missesReported, split := none, cutLine := none, origin := some r.start }

/-- R73, R74: the decision of `line` broke inside the own segment at `start` at the opportunity `o`. -/
def cutSegment (line : LineNumber) (start : CopyIndex) (o : TallyOpp) (s : State) : State :=
  match s.shaper.record? start with
  | some r =>
    match r.opps.find? (fun x => x.toTally == o) with
    | some x =>
      if r.state = .ready then
        let chars := (s.window.chars r.start x.offset).length
        let h := s.shaper.mapRecord start (fun y => y.firstPart x chars line)
        placeRemainder (s.withShaper { h with remainder := some (r.remainderOf x chars) })
      else s
    | none => s
  | none => s

end Sys2Proof.Machine
end

