-- ==== Sys2Proof/Machine/Copy.lean ====
section
/-! DEFINITION. The copy decoder (1.1), the stamping part of the segment splitter (2.2 to 2.5) and the cutter (2.6, 2.7). -/

namespace Sys2Proof.Machine

/-! ### Decoding (R3 to R9) -/

/-- R3: the operand bytes a lead byte waits for. -/
def operandBytes (b : Nat) : Nat :=
  if b = 0x01 ∨ b = 0x09 ∨ b = 0x0A ∨ b = 0x0C ∨ b = 0x0D ∨ 0xF0 ≤ b then 2
  else if b = 0x04 ∨ b = 0x0B ∨ b = 0x0E ∨ b = 0x0F ∨ b = 0x10 then 1
  else 0

/-- 00_scope.md: an out-of-range value is replaced by the nearest end of its range. -/
def clamp (lo hi v : Nat) : Nat := max lo (min hi v)

/-- R8: a quad nibble. -/
def quadOf : Nat → QuadMode
  | 0 => .justify
  | 2 => .flushEnd
  | 3 => .centre
  | _ => .flushStart

/-- R4 to R6, R9: what a lead byte with no operands completes. -/
def plainItem (page b : Nat) : Option ItemBody :=
  if b = 0x02 then some .para
  else if b = 0x03 then some .space
  else if b = 0x05 then some .softHyphen
  else if b = 0x06 then some .ltrEmbed
  else if b = 0x07 then some .rtlEmbed
  else if b = 0x08 then some .pop
  else if 0x20 ≤ b ∧ b ≤ 0xEF then some (.character (page * 256 + b))
  else none

/-- R4, R7, R8: what a lead byte with operands completes, with `v` its operands as a number, high byte first. -/
def operandItem (lead v : Nat) : Option ItemBody :=
  if lead = 0x01 then some (.page (v % 4096))
  else if lead = 0x04 then some (.thin v)
  else if lead = 0x09 then some (.size (clamp 16 511 v))
  else if lead = 0x0A then some (.set (clamp 16 511 v))
  else if lead = 0x0B then some (.font (v % 16))
  else if lead = 0x0C then some (.measure (clamp 120 7200 v))
  else if lead = 0x0D then some (.lead (clamp 0 2000 v))
  else if lead = 0x0E then some (.quad (quadOf (v % 16)) (quadOf (v / 16)))
  else if lead = 0x0F then some (.spread (if v = 1 then .elongate else .spaces))
  else if lead = 0x10 then some (.base (if v = 1 then 1 else 0))
  else if 0xF0 ≤ lead then some (.character ((lead - 0xF0) * 65536 + v))
  else none

/-- R4: a completed PAGE item sets the page base. -/
def Decoder.complete (d : Decoder) (body : Option ItemBody) : Decoder × Option ItemBody :=
  let d0 := { d with lead := none, operand := none }
  match body with
  | some (.page n) => ({ d0 with pageBase := n }, body)
  | _ => (d0, body)

/-- R3: one copy byte, and the item it completes. -/
def Decoder.byte (d : Decoder) (b : Byte) : Decoder × Option ItemBody :=
  match d.lead, d.operand with
  | none, _ =>
    if operandBytes b.toNat = 0 then d.complete (plainItem d.pageBase b.toNat)
    else ({ d with lead := some b, operand := none }, none)
  | some l, none =>
    if operandBytes l.toNat = 2 then ({ d with operand := some b }, none)
    else d.complete (operandItem l.toNat b.toNat)
  | some l, some h => d.complete (operandItem l.toNat (h.toNat * 256 + b.toNat))

/-- R17: the frame with sequence number `q` is in sequence. -/
def Decoder.inSequence (d : Decoder) (q : BitVec 16) : Bool :=
  match d.lastSeq with
  | none => true
  | some n => q == n + 1

/-- R17: the sequence number is taken; at a gap the pending lead and its operands are dropped. -/
def Decoder.sequence (d : Decoder) (q : BitVec 16) : Decoder :=
  if d.inSequence q then { d with lastSeq := some q } else { d with lastSeq := some q, lead := none, operand := none }

/-! ### Owners and levels (R21, R30, R31) -/

def Claim.covers (c : Claim) (code : Nat) : Bool := c.first ≤ code && code ≤ c.last

/-- R21: the lowest-numbered covering claim decides. -/
def Splitter.ownerOf (p : Splitter) (code : Nat) : Owner :=
  match p.claims.findIdx? (fun c => c.covers code) with
  | some k => .own k
  | none => if p.fallback then .unclaimed else .foreign

/-- R20: RN and RJ run right to left. -/
def ScriptClass.rightToLeft : ScriptClass → Bool
  | .rn | .rj => true
  | .l | .lr => false

/-- R30: the level of an own character at current level `c`. -/
def ownLevel (cls : ScriptClass) (c : Nat) : Nat :=
  if cls.rightToLeft = (c % 2 == 1) then c else min 15 (c + 1)

/-- R30, R31. -/
def Splitter.levelOf (p : Splitter) : Owner → Nat
  | .own k => match p.claims[k]? with | some c => ownLevel c.cls p.level | none => p.level
  | .foreign | .unclaimed => p.level

/-! ### Stamping (R23 to R29) -/

/-- R25: the governing item fixes the paragraph base level. -/
def Splitter.closeStart (p : Splitter) : Splitter :=
  if p.startPending then { p with paraBase := p.baseInForce, startPending := false } else p

/-- R26: the level a push asks for. -/
def askedLevel (kind : PushKind) (c : Nat) : Nat :=
  match kind with
  | .rtl => if c % 2 = 0 then c + 1 else c + 2
  | .ltr => if c % 2 = 0 then c + 2 else c + 1

/-- R26: a push is taken. -/
def Splitter.takesPush (p : Splitter) (kind : PushKind) : Bool := askedLevel kind p.level ≤ 15 && p.stack.length < 15

/-- R26, R27: a push with the decoder's page base. -/
def Splitter.push (p : Splitter) (kind : PushKind) (page : Nat) : Splitter :=
  if p.takesPush kind then
    { p with stack := ⟨askedLevel kind p.level, kind, page⟩ :: p.stack, level := askedLevel kind p.level }
  else { p with overflow := min 255 (p.overflow + 1) }

/-- R28: a POP, with the page base before and after it. -/
def Splitter.pop (p : Splitter) (page : Nat) : Splitter × Nat :=
  if 0 < p.overflow then ({ p with overflow := p.overflow - 1 }, page)
  else
    match p.stack with
    | [] => (p, page)
    | top :: rest =>
      ({ p with stack := rest, level := match rest with | e :: _ => e.level | [] => p.paraBase }, top.page)

/-- R29. -/
def Splitter.endPara (p : Splitter) : Splitter :=
  { p with stack := [], overflow := 0, level := p.baseInForce, startPending := true }

/-- R25: a BASE item. -/
def Splitter.setBase (p : Splitter) (v : Nat) : Splitter :=
  if p.startPending then { p with baseInForce := v, level := v } else { p with baseInForce := v }

/-- What stamping an item leaves: the splitter, the page base (R28), the fields written, and whether a push was refused. -/
structure Stamped where
  splitter : Splitter
  page     : Nat
  owner    : Option Owner
  stamp    : Option Stamp
  refused  : Bool
  deriving DecidableEq, Repr

/-- The parameters in force as a stamp at the level given (R23). -/
def Splitter.stampAt (p : Splitter) (level : Nat) : Stamp := ⟨level, p.size, p.setSize, p.slot⟩

/-- R23: the splitter acts on an item's kind and then writes its fields. -/
def Splitter.stamp (p : Splitter) (page : Nat) (b : ItemBody) : Stamped :=
  match b with
  | .character code =>
    let p := p.closeStart
    let owner := p.ownerOf code
    ⟨p, page, some owner, some (p.stampAt (p.levelOf owner)), false⟩
  | .space | .thin _ => ⟨p, page, none, some (p.stampAt p.level), false⟩
  | .size q => ⟨{ p with size := q, setSize := q }, page, none, none, false⟩
  | .set q => ⟨{ p with setSize := q }, page, none, none, false⟩
  | .font n => ⟨{ p with slot := some n }, page, none, none, false⟩
  | .base v => ⟨p.setBase v, page, none, none, false⟩
  | .ltrEmbed => ⟨p.closeStart.push .ltr page, page, none, none, !p.closeStart.takesPush .ltr⟩
  | .rtlEmbed => ⟨p.closeStart.push .rtl page, page, none, none, !p.closeStart.takesPush .rtl⟩
  | .pop => let r := p.closeStart.pop page; ⟨r.1, r.2, none, none, false⟩
  | .para => ⟨p.closeStart.endPara, page, none, none, false⟩
  | .softHyphen => ⟨p.closeStart, page, none, none, false⟩
  | .page _ | .measure _ | .lead _ | .quad _ _ | .spread _ => ⟨p, page, none, none, false⟩

/-! ### Cutting (R32 to R36) -/

/-- R34: the most characters a segment holds. -/
def maxCharacters : Nat := 40

/-- What an item does to an open segment (R33). -/
inductive CutEffect where
  /-- An own character of a claim, at a level. -/
  | own (claim level : Nat)
  /-- The item ends the segment. -/
  | ends
  /-- The item does not end the segment. -/
  | passes
  deriving DecidableEq, Repr

/-- R33, with the owner a box build or the cutter looks for. -/
def Item.cutEffect (it : Item) : CutEffect :=
  match it.body, it.owner, it.stamp with
  | .character _, some (.own k), some st => .own k st.level
  | .character _, _, _ => .ends
  | .space, _, _ | .thin _, _, _ | .para, _, _ | .ltrEmbed, _, _ | .rtlEmbed, _, _ | .pop, _, _ => .ends
  | .softHyphen, _, _ | .page _, _, _ | .size _, _, _ | .set _, _, _ | .font _, _, _ | .measure _, _, _
  | .lead _, _, _ | .quad _ _, _, _ | .spread _, _, _ | .base _, _, _ => .passes

/-- The open segment (R22): the record in state CUTTING. -/
def Shaper.cutting? (h : Shaper) : Option SegRecord := h.records.find? (fun r => r.state == .cutting)

/-- R35: the open segment closes and is handed to the shaper. -/
def Shaper.closeSegment (h : Shaper) (continues : Bool) : Shaper :=
  { h with records := h.records.map (fun r =>
      if r.state = .cutting then { r with state := .waiting, continues := continues } else r) }

/-- R33, R35: the character at `i` joins the open segment. -/
def Shaper.joinSegment (h : Shaper) (i : CopyIndex) : Shaper :=
  { h with records := h.records.map (fun r =>
      if r.state = .cutting then
        { r with charCount := r.charCount + 1, endIdx := i, itemCount := distance r.start i + 1 } else r) }

/-- R35: a new record. -/
def SegRecord.opening (i : CopyIndex) (claim level : Nat) (cls : ScriptClass) : SegRecord :=
  { start := i, endIdx := i, charCount := 1, itemCount := 1, claim := claim, cls := cls, level := level,
    continues := false, state := .cutting, opps := [], elongCount := 0, glyphs := [], width := 0, elongWidth := 0,
    elongGlyph := 0, measureQueued := false, missesReported := false, split := none, cutLine := none, origin := none }

/-- R36, R74: a record is free for the cutter. -/
def Shaper.recordFree (h : Shaper) : Bool := h.records.length < recordLimit && h.remainder.isNone

def Splitter.classOf (p : Splitter) (claim : Nat) : ScriptClass :=
  match p.claims[claim]? with | some c => c.cls | none => .l

/-- R35, R36: a segment opens at `i` if a record is free; `false` is a stall. -/
def openSegment (p : Splitter) (h : Shaper) (i : CopyIndex) (claim level : Nat) : Shaper × Bool :=
  if h.recordFree then
    ({ h with records := insertRecord (SegRecord.opening i claim level (p.classOf claim)) h.records }, true)
  else (h, false)

/-- R33, R34: the cutter examines the item at `i`; `false` says the cut point stays. -/
def cutItem (p : Splitter) (h : Shaper) (i : CopyIndex) (it : Item) : Shaper × Bool :=
  if it.killed then (h, true)
  else
    match it.cutEffect with
    | .passes => (h, true)
    | .ends => (h.closeSegment false, true)
    | .own k lvl =>
      match h.cutting? with
      | none => openSegment p h i k lvl
      | some r =>
        if r.claim = k ∧ r.level = lvl then
          if r.charCount < maxCharacters then (h.joinSegment i, true)
          else openSegment p (h.closeSegment true) i k lvl
        else openSegment p (h.closeSegment false) i k lvl

/-- R32: the cutter goes on from the cut point, over at most `fuel` items. -/
def runCutter : Nat → State → State
  | 0, s => s
  | fuel + 1, s =>
    if s.splitter.cutting then
      match s.window.item? s.splitter.cutPoint with
      | some it =>
        let r := cutItem s.splitter s.shaper s.splitter.cutPoint it
        if r.2 then
          runCutter fuel { s with
            shaper := r.1
            splitter := { s.splitter with cutPoint := s.splitter.cutPoint + 1 } }
        else { s with shaper := r.1 }
      | none =>
        if s.window.behind s.splitter.cutPoint then
          runCutter fuel (s.withSplitter { s.splitter with cutPoint := s.window.oldest })
        else s
    else s

/-- R32, R36: cutting goes on as far as items are held and records are free. -/
def resumeCutting (s : State) : State := runCutter (s.window.count + 2) s

/-! ### Box segments (R38, R129) -/

/-- A box segment in the making over an uncovered span. -/
structure BoxCut where
  start : CopyIndex
  last  : CopyIndex
  chars : Nat
  level : Nat
  deriving DecidableEq, Repr

def BoxCut.plan (c : BoxCut) (continues : Bool) : BoxPlan :=
  ⟨c.start, distance c.start c.last + 1, c.chars, c.level, continues⟩

/-- R38: the span's unclaimed characters cut by R33 and R34; `cur` is the box segment being cut. -/
def cutBoxes : Option BoxCut → List (CopyIndex × Item) → List BoxPlan
  | none, [] => []
  | some c, [] => [c.plan false]
  | cur, (i, it) :: rest =>
    match it.body, it.stamp with
    | .character _, some st =>
      match cur with
      | none => cutBoxes (some ⟨i, i, 1, st.level⟩) rest
      | some c =>
        if c.level = st.level then
          if c.chars < maxCharacters then cutBoxes (some { c with last := i, chars := c.chars + 1 }) rest
          else c.plan true :: cutBoxes (some ⟨i, i, 1, st.level⟩) rest
        else c.plan false :: cutBoxes (some ⟨i, i, 1, st.level⟩) rest
    | _, _ => cutBoxes cur rest

end Sys2Proof.Machine
end

