-- ==== Sys2Proof/Machine/Placement.lean ====
section
/-! DEFINITION. The placement unit (chapter 8): visual order, glyph positions, PLACE frames, hold responses; and the entry
of waiting frames into freed slots (R104), which lets producers go on. -/

namespace Sys2Proof.Machine

/-! ### Visual order (R140, R141) -/

/-- R140: every maximal run of items at level `k` or above is reversed; `run` holds the run being read, last first. -/
def reverseRuns {α : Type} (level : α → Nat) (k : Nat) : List α → List α → List α
  | run, [] => run
  | run, x :: rest => if k ≤ level x then reverseRuns level k (x :: run) rest else run ++ x :: reverseRuns level k [] rest

/-- R140: the levels of the passes, from the highest down to the lowest odd one. -/
def passLevels (levels : List Nat) : List Nat :=
  let odd := levels.filter (fun l => l % 2 == 1)
  match odd with
  | [] => []
  | o :: rest =>
    let low := rest.foldl min o
    ((List.range (levels.foldl max 0 + 1)).filter (fun k => low ≤ k)).reverse

/-- R140: items in logical order put in visual order. -/
def visualOrder {α : Type} (level : α → Nat) (items : List α) : List α :=
  (passLevels (items.map level)).foldl (fun l k => reverseRuns level k [] l) items

/-- R141: left edges, the first at `left`. -/
def assignLefts : Nat → List VisualItem → List VisualItem
  | _, [] => []
  | left, v :: rest => { v with left := left } :: assignLefts (left + v.width) rest

/-- The items of a decided line with their set widths and shares, not yet placed. -/
def zipSetting : List TallyItem → List Nat → List (List Nat) → List VisualItem
  | [], _, _ => []
  | it :: rest, ws, sh => ⟨it, 0, ws.headD 0, sh.headD [], false⟩ :: zipSetting rest ws.tail sh.tail

/-- R140, R141: the visual list of a line; `placed` says which items this station places. -/
def visualList (items : List TallyItem) (st : Setting) (placed : TallyItem → Bool) : List VisualItem :=
  assignLefts st.offset (visualOrder (fun v => v.item.level)
    ((zipSetting items st.widths st.shares).map (fun v => { v with placed := placed v.item })))

/-! ### Glyphs inside an item (R142 to R146) -/

/-- R146: an x is sent clamped. -/
def clampX (x : Int) : Nat := (max 0 (min 16383 x)).toNat

/-- R146: a y is sent clamped. -/
def clampY (y : Int) : Int := max (-32768) (min 32767 y)

def glyphEntry (g : GlyphRecord) (x y : Int) : PlaceEntry :=
  ⟨g.glyph, g.slot, clampX x, clampY y, g.setSize, g.mark, g.missing, false, g.hyphen⟩

/-- R145: a mark, with the x of its base, or the pen when its item has none before it. -/
def markEntry (g : GlyphRecord) (base : Option Int) (pen : Int) : PlaceEntry :=
  match base with
  | some b => glyphEntry g (b + unitSteps g.dx g.setSize) (unitSteps g.dy g.size)
  | none => glyphEntry g pen 0

/-- R144: what every elongation piece of an item shares. -/
structure PieceSpec where
  glyph   : Nat
  slot    : Nat
  setSize : Nat
  width   : Nat
  deriving DecidableEq, Repr

/-- R144: ceiling of `l ÷ e`. -/
def pieceCount (l e : Nat) : Nat := (l + e - 1) / e

/-- R144: the pieces that fill a gap of `l` steps whose near edge, its right end, is `near`. -/
def pieces (p : PieceSpec) (near : Int) (l : Nat) : List PlaceEntry :=
  (List.range (pieceCount l p.width)).map (fun j =>
    ⟨p.glyph, p.slot, clampX (if j + 1 = pieceCount l p.width then near - l else near - (p.width * (j + 1) : Nat)), 0,
      p.setSize, false, false, true, false⟩)

/-- R142: records with their step advances, laid from left to right. -/
def layEven : Int → Option Int → List (GlyphRecord × Nat) → List PlaceEntry
  | _, _, [] => []
  | pen, base, (g, adv) :: rest =>
    if g.mark then markEntry g base pen :: layEven (pen + adv) base rest
    else glyphEntry g pen 0 :: layEven (pen + adv) (some pen) rest

/-- R143, R144: the pieces that fill gaps laid one after another from `near`, the first gap nearest to it. -/
def gapPieces (p : PieceSpec) : Int → List Nat → List PlaceEntry
  | _, [] => []
  | near, l :: rest => pieces p near l ++ gapPieces p (near - l) rest

/-- R143, R144: records laid from right to left. A gap follows the record that carries its point and the marks directly after
that record; `gaps` are the gaps that stand due before the next record that is no mark, in the order of their records. -/
def layOdd (p : PieceSpec) : Int → Option Int → List Nat → List Nat → List (GlyphRecord × Nat) → List PlaceEntry
  | pen, _, gaps, _, [] => gapPieces p pen gaps
  | pen, base, gaps, shares, (g, adv) :: rest =>
    let due := if g.elong then [shares.headD 0] else []
    let left := if g.elong then shares.tail else shares
    if g.mark then markEntry g base pen :: layOdd p (pen - adv) base (gaps ++ due) left rest
    else
      let x := pen - gaps.sum - adv
      gapPieces p pen gaps ++ glyphEntry g x 0 :: layOdd p x (some x) due left rest

/-- R142, R143: the entries of an own item, from its left edge, set width and shares and its glyph records. -/
def layItem (g : SegItem) (v : VisualItem) (gs : List GlyphRecord) (elongGlyph : Nat) : List PlaceEntry :=
  let rs := gs.zip (stepAdvances gs)
  if g.level % 2 = 0 then layEven v.left none rs
  else
    let first := gs.head?
    let spec : PieceSpec :=
      ⟨elongGlyph, (first.map (·.slot)).getD 0, (first.map (·.setSize)).getD 0, g.elongWidth⟩
    layOdd spec ((v.left + v.width : Nat) : Int) none [] v.shares rs

/-- R147: the glyph records of the record or box segment that matches an own item, and its elongation glyph. -/
def Shaper.match? (h : Shaper) (g : SegItem) : Option (List GlyphRecord × Nat) :=
  match h.records.find? (fun r => r.start == g.start && r.state == .ready && r.width == g.natural) with
  | some r => some (r.glyphs, r.elongGlyph)
  | none =>
    (h.boxes.find? (fun b => b.start == g.start && b.state == .ready && b.width == g.natural)).map
      (fun b => (b.glyphs, 0))

/-- R139, R147: an own item that is placed. -/
def State.places (s : State) : TallyItem → Bool
  | .segment g => g.sender == s.port.station && (s.shaper.match? g).isSome
  | .space _ _ _ _ _ | .thin _ _ _ => false

/-- R147: an own item with no match. -/
def State.unmatched (s : State) : TallyItem → Bool
  | .segment g => g.sender == s.port.station && (s.shaper.match? g).isNone
  | .space _ _ _ _ _ | .thin _ _ _ => false

/-- Visual items in logical order (R146). -/
def insertLogical (v : VisualItem) : List VisualItem → List VisualItem
  | [] => [v]
  | x :: rest => if atOrAfter x.item.start v.item.start then v :: x :: rest else x :: insertLogical v rest

def State.itemEntries (s : State) (v : VisualItem) : List PlaceEntry :=
  match v.item with
  | .segment g => match s.shaper.match? g with | some x => layItem g v x.1 x.2 | none => []
  | .space _ _ _ _ _ | .thin _ _ _ => []

/-- R146: the entries this station sends for a line. -/
def State.lineEntries (s : State) (visual : List VisualItem) : List PlaceEntry :=
  ((visual.filter (·.placed)).foldr insertLogical []).flatMap s.itemEntries

/-- R131: the glyph records this station sets in a line. -/
def State.glyphCount (s : State) (items : List TallyItem) : Nat :=
  (items.map (fun it => match it with
    | .segment g => if g.sender = s.port.station then ((s.shaper.match? g).map (fun x => x.1.length)).getD 0 else 0
    | .space _ _ _ _ _ | .thin _ _ _ => 0)).sum

/-! ### PLACE frames (R148) -/

/-- R148: the most entries one PLACE frame holds. -/
def frameEntries : Nat := 6

def PlacementUnit.line? (u : PlacementUnit) (n : LineNumber) : Option PlaceState := u.lines.find? (fun p => p.number == n)

def PlacementUnit.mapLine (u : PlacementUnit) (n : LineNumber) (f : PlaceState → PlaceState) : PlacementUnit :=
  { u with lines := u.lines.map (fun p => if p.number == n then f p else p) }

/-- R148: the line whose next frame is to be built. -/
def PlacementUnit.nextLine? (u : PlacementUnit) : Option PlaceState :=
  u.lines.find? (fun p => !p.toReplace && p.nextEntry < p.entryCount)

/-- R148: the frame from a line's next entry on. -/
def State.placeFrame (s : State) (p : PlaceState) : Frame :=
  s.port.frame .place (PlaceMsg.encode ⟨p.number, p.gen, p.nextEntry, p.entryCount ≤ p.nextEntry + frameEntries,
    ((s.lineEntries p.visual).drop p.nextEntry).take frameEntries⟩)

/-- R148, R154: the unit builds frames: it is not stalled and not held under REPLACE LINE. -/
def State.builds (s : State) : Bool :=
  s.working && !s.port.stalled .placement && !(s.placement.held && s.placement.response == .replaceLine)

/-- R148: frames are built one after another, at most `fuel` of them. -/
def pumpFrames : Nat → State → State
  | 0, s => s
  | fuel + 1, s =>
    if s.builds then
      match s.placement.nextLine? with
      | none => s
      | some p =>
        let s1 := s.withPlacement (s.placement.mapLine p.number (fun x =>
          { x with nextEntry := min x.entryCount (x.nextEntry + frameEntries) }))
        pumpFrames fuel (handOver .placement (s.placeFrame p) s1)
    else s

/-- R148: frames are built until none is left or the unit stalls. -/
def pump (s : State) : State := pumpFrames (s.placement.lines.map (·.entryCount)).sum s

/-! ### Slots that free (R104) -/

/-- R104: the oldest waiting frame of each producer. -/
def oldestWaiting : List Producer → List WaitingFrame → List WaitingFrame
  | _, [] => []
  | seen, w :: rest =>
    if seen.contains w.producer then oldestWaiting seen rest else w :: oldestWaiting (w.producer :: seen) rest

/-- R104: of the competitors, the one with the lowest word; of one word, the one made first. -/
def lowestWord : List WaitingFrame → Option WaitingFrame
  | [] => none
  | w :: rest =>
    match lowestWord rest with
    | some x => if x.frame.word.toNat < w.frame.word.toNat then some x else some w
    | none => some w

/-- R104: the waiting frame that enters next, if a slot it may use is free. -/
def BusPort.nextWaiting (p : BusPort) : Option WaitingFrame :=
  lowestWord ((oldestWaiting [] p.waiting).filter (fun w => (p.slotFor w.frame.cls).isSome))

/-- R104: a waiting frame enters the queue and its producer goes on. When several slots free at once, a PLACE frame that the placement
unit builds as its waiting frame enters takes a further slot before frames of other producers that already wait (DESIGN CHOICE,
log entry 20). -/
def enterWaiting (w : WaitingFrame) (s : State) : State :=
  match s.port.slotFor w.frame.cls with
  | none => s
  | some urgent =>
    let p := { s.port with waiting := s.port.waiting.erase w }
    let s1 := s.withPort (p.enqueue w.frame urgent (s.placement.entryMark w.frame))
    match w.producer with
    | .shaper => s1.withShaper (s1.shaper.mapRecord w.frame.segStart (fun r => { r with measureQueued := true }))
    | .boxBuilder => s1.withShaper (s1.shaper.mapBox (fun b => b.start == w.frame.segStart && !b.measureQueued)
        (fun b => { b with measureQueued := true }))
    | .placement => pump s1
    | .tally | .notice | .recallKill => s1

/-- R104: waiting frames enter while slots are free, at most `fuel` of them. -/
def settleFrames : Nat → State → State
  | 0, s => s
  | fuel + 1, s =>
    match s.port.nextWaiting with
    | some w => settleFrames fuel (enterWaiting w s)
    | none => s

/-- R104: as many waiting frames enter as there are slots. -/
def settleSlots (s : State) : State := settleFrames (ordinarySlots + urgentSlots) s

/-! ### What a freeing sets going -/

/-- The work that slots, records, store room and an idle port or measure unit let go on: waiting frames (R104), before anything
below makes frames of its own, then the pending remainder (R74), stalled cutting (R36), waiting reservations (R59), the next
measurement (R80), the next read (R40). -/
def settle (s : State) : State :=
  startNextRead (startMeasure (grantStore (resumeCutting (placeRemainder (settleSlots s)))))

/-! ### A decided line (R139) -/

/-- R139: the placement state of a line just decided. -/
def State.placeStateOf (s : State) (r : LineRecord) (st : Setting) : PlaceState :=
  let visual := visualList r.tally st s.places
  let n := (s.lineEntries visual).length
  { number := r.number, gen := r.gen, visual := visual, entryCount := n, nextEntry := 0,
    toReplace := s.placement.held && s.placement.response == .replaceLine, carried := n == 0,
    marks := List.replicate n false }

/-- R153: the finishing line ends when it becomes SENT or its placement state is released. -/
def PlacementUnit.endFinishing (u : PlacementUnit) (ends : LineNumber → Bool) : PlacementUnit :=
  match u.finishing with
  | some n => if ends n then { u with finishing := none } else u
  | none => u

/-- R150: the placement states of lines that `which` names are released. -/
def PlacementUnit.release (u : PlacementUnit) (which : LineNumber → Bool) : PlacementUnit :=
  { u with lines := u.lines.filter (fun p => !which p.number) }.endFinishing which

/-- R115: a DECIDED line whose own verdict and placements are carried becomes SENT. -/
def LineRecord.trySend (r : LineRecord) : LineRecord :=
  if r.state = .decided ∧ r.ownVerdict ∧ r.placed then { r with state := .sent } else r

/-- R115, R153: line `n` becomes SENT if both its conditions hold; it is then no longer the finishing line. -/
def trySendLine (n : LineNumber) (s : State) : State :=
  let t := s.tally.mapLine n LineRecord.trySend
  let sent := t.lines.any (fun r => r.number == n && r.state == .sent)
  (s.withTally t).withPlacement (if sent then s.placement.endFinishing (fun m => m == n) else s.placement)

/-! ### Hold responses (R152 to R155) -/

/-- A PLACE frame of a line that `which` names. -/
def isPlaceOf (which : LineNumber → Bool) (f : Frame) : Bool := f.cls == .place && which f.lineNumber

/-- R152, R153: the held-back mark of queued PLACE frames of lines that `which` names is set. -/
def BusPort.holdBack (p : BusPort) (which : LineNumber → Bool) : BusPort :=
  { p with tx := p.tx.map (fun t => if isPlaceOf which t.frame then { t with heldBack := true } else t) }

/-- R152, R153: every held-back mark is cleared. -/
def BusPort.unhold (p : BusPort) : BusPort := { p with tx := p.tx.map (fun t => { t with heldBack := false }) }

/-- R153: the line of the first PLACE frame in the queue, else of the waiting PLACE frame. A frame in flight stays in the queue while
its attempt lasts, its removal noted or not (R107). -/
def BusPort.finishingLine (p : BusPort) : Option LineNumber :=
  match p.tx.find? (fun t => t.frame.cls == .place) with
  | some t => some t.frame.lineNumber
  | none => (p.waiting.find? (fun w => w.frame.cls == .place)).map (fun w => w.frame.lineNumber)

/-- R154: the placements of a line are withdrawn; with no entries there is nothing to withdraw. -/
def PlaceState.withdrawn (p : PlaceState) : PlaceState :=
  { p with
    toReplace := true
    nextEntry := 0
    carried := p.entryCount == 0
    marks := List.replicate p.entryCount false }

/-- R154: the DECIDED lines. -/
def TallyUnit.decided (t : TallyUnit) (n : LineNumber) : Bool := t.lines.any (fun r => r.number == n && r.state == .decided)

/-- R154, at HOLD. -/
def replaceLines (s : State) : State :=
  let p := s.placement
  settleSlots { s with
    port := s.port.remove (isPlaceOf s.tally.decided)
    placement := { p with lines := p.lines.map (fun x => if s.tally.decided x.number then x.withdrawn else x) }
    tally := { s.tally with lines := s.tally.lines.map (fun r =>
      if r.state = .decided then
        { r with placed := (p.line? r.number).any (fun x => x.entryCount == 0) }
      else r) } }

/-- R152 to R154: the hold response is applied. -/
def applyHold (s : State) : State :=
  match s.placement.response with
  | .atFrame => s.withPort (s.port.holdBack (fun _ => true))
  | .atLineEnd =>
    let f := s.port.finishingLine
    (s.withPlacement { s.placement with finishing := f }).withPort (s.port.holdBack (fun n => f != some n))
  | .replaceLine => replaceLines s

/-- R155: lines to replace are queued again from entry 0. -/
def PlacementUnit.replaceAgain (u : PlacementUnit) : PlacementUnit :=
  { u with lines := u.lines.map (fun p => if p.toReplace then { p with toReplace := false, nextEntry := 0 } else p) }

/-- R152, R153, R155: the release is applied; held is already no. -/
def applyRelease (s : State) : State :=
  match s.placement.response with
  | .atFrame => s.withPort s.port.unhold
  | .atLineEnd => (s.withPlacement { s.placement with finishing := none }).withPort s.port.unhold
  | .replaceLine => pump (s.withPlacement s.placement.replaceAgain)

end Sys2Proof.Machine
end

