-- ==== Sys2Proof/Machine/Tally.lean ====
section
/-! DEFINITION. The tally unit (chapter 7): line records, the line tally, the coverage scan, the break decision, the coverage
timer, verdicts and the roster. -/

namespace Sys2Proof.Machine

/-! ### MUSTER (R109, R182) -/

def State.musterFrame (s : State) : Frame :=
  s.port.frame .muster (musterPayload s.port.station s.splitter.claims.length s.splitter.fallback)

/-- R182: a MUSTER is queued; any held MUSTER is discarded. -/
def queueMuster (s : State) : State :=
  handOver .tally s.musterFrame (s.withPort { s.port with heldMuster := none })

/-- R109: the held MUSTER enters the queue again, or becomes a waiting frame of the tally unit. -/
def requeueHeldMuster (s : State) : State :=
  match s.port.heldMuster with
  | some h => handOver .tally h.frame (s.withPort { s.port with heldMuster := none })
  | none => s

/-! ### Opening a line (R116) -/

/-- R116, R123: the scan of a line that starts at `start`. -/
def Scan.atStart (start : CopyIndex) : Scan := ⟨start, 0, 0, [], .copy⟩

/-- R116: a record that opens, with the base level of the line before it or none for a paragraph's first line. -/
def LineRecord.opening (n : LineNumber) (start : CopyIndex) (inherited : Option Nat) (tally : List TallyItem) : LineRecord where
  number := n
  gen := 0
  state := .opened
  start := start
  endIdx := none
  params := none
  inherited := inherited
  tally := tally
  scan := Scan.atStart start
  verdicts := []
  decision := none
  ownVerdict := false
  placed := false
  lastOfPara := false
  overset := false
  loose := false
  gapChecked := false
  fullRaised := false

def LineRecord.ref (r : LineRecord) : LineRef := ⟨r.number, r.gen, some r.start⟩

/-- A line opens; at a paragraph's first line a held MUSTER enters the queue (R109, R116). -/
def openLine (r : LineRecord) (s : State) : State :=
  let s1 := s.withTally { s.tally with lines := s.tally.lines ++ [r] }
  if r.inherited.isNone then requeueHeldMuster s1 else s1

/-- R116: the open line's parameters are filled in once its governing item is held. -/
def LineRecord.fill (w : Window) (r : LineRecord) : LineRecord :=
  match r.params, w.governing? r.start with
  | none, some g =>
    let p := w.inForce g
    { r with params := some { p with base := r.inherited.getD p.base } }
  | _, _ => r

/-- R18, R116: the copy gaps marked on the open line's start item, once it is held and not yet checked. -/
def LineRecord.gapsDue (w : Window) (r : LineRecord) : List GapNote :=
  if r.gapChecked then [] else ((w.item? r.start).map Item.gaps).getD []

/-- R18: COPY GAP is raised against the line for a gap marked on its start item. -/
def raiseGap (r : LineRecord) (s : State) (g : GapNote) : State :=
  raise ⟨.copyGap, g.point, r.start, some g.sender, some r.ref, none⟩ s

/-- R116: the gap mark check of the open line. -/
def checkGapMark (s : State) : State :=
  match s.tally.openLine? with
  | some r =>
    if s.window.holds r.start then
      (r.gapsDue s.window).foldl (raiseGap r) (s.withTally (s.tally.mapLine r.number (fun x => { x with gapChecked := true })))
    else s
  | none => s

/-! ### The line tally (7.2) -/

/-- R118: the most items in one line's tally. -/
def tallyLimit : Nat := 48

/-- R118: items stand in order of copy start index. -/
def insertItem (it : TallyItem) : List TallyItem → List TallyItem
  | [] => [it]
  | x :: rest => if atOrAfter x.start it.start then it :: x :: rest else x :: insertItem it rest

/-- Two copy ranges, each a start index and an item count, overlap. -/
def rangesOverlap (a : CopyIndex) (n : Nat) (b : CopyIndex) (m : Nat) : Bool := distance a b < n || distance b a < m

def TallyItem.overlaps (g : SegItem) (x : TallyItem) : Bool := rangesOverlap x.start x.range g.start g.count

def TallyItem.sender? : TallyItem → Option Nat
  | .segment g => some g.sender
  | .space _ _ _ _ _ | .thin _ _ _ => none

/-- The index lies before `e` in a line that starts at `start`. -/
def beforeIn (start i e : CopyIndex) : Bool := distance start i < distance start e

/-- R123: the scan sums an item it passes: a space or thin, and a segment that starts at a character. -/
def Window.sums (w : Window) (x : TallyItem) : Bool :=
  x.sender?.isNone || (w.item? x.start).any (fun it => match it.body with | .character _ => true | _ => false)

/-- R121: the scan is set back to `f`, its sums to those of the items it had passed there, or left when it has not reached it. -/
def LineRecord.rewind (w : Window) (r : LineRecord) (f : CopyIndex) : LineRecord :=
  if beforeIn r.start f r.scan.point then
    let kept := r.tally.filter (fun x => beforeIn r.start x.start f && w.sums x)
    { r with scan := { point := f, width := naturalWidth kept, shrink := (kept.map TallyItem.shrink).sum,
                       opps := r.scan.opps.filter (fun o => beforeIn r.start o.place f), stop := .copy } }
  else r

/-- R122: TALLY FULL, raised against the line at the item that was not entered. -/
def raiseTallyFull (r : LineRecord) (i : CopyIndex) (s : State) : State :=
  raise ⟨.tallyFull, i, i, none, some r.ref, none⟩ s

/-- R118, R122: a segment item stands in a tally that has room for it. -/
def LineRecord.enter (r : LineRecord) (g : SegItem) : LineRecord :=
  if r.tally.length < tallyLimit then { r with tally := insertItem (.segment g) r.tally } else r

/-- R120, R122: a MEASURE that overlaps no item is entered, unless the tally is full. -/
def enterSegment (r : LineRecord) (g : SegItem) (s : State) : State :=
  if r.tally.length < tallyLimit then s.withTally (s.tally.changeLine r (fun x => x.enter g))
  else if r.fullRaised then s
  else raiseTallyFull r g.start (s.withTally (s.tally.changeLine r (fun x => { x with fullRaised := true })))

/-- R121, OPEN: the frame replaces the items of its sender that it overlaps. -/
def replaceSegments (r : LineRecord) (g : SegItem) (old : List TallyItem) (s : State) : State :=
  if old = [.segment g] then s
  else
    let first := (old.head?.map TallyItem.start).getD g.start
    s.withTally (s.tally.changeLine r (fun x =>
      { x.rewind s.window first with tally := x.tally.filter (fun y => !y.overlaps g) }.enter g))

/-- R121, DECIDED or SENT: the frame is compared with the item of its start index. -/
def compareSegment (r : LineRecord) (g : SegItem) (s : State) : State :=
  let same (x : TallyItem) : Bool :=
    match x with
    | .segment h => { h with cut := none } == g
    | .space _ _ _ _ _ | .thin _ _ _ => false
  if r.tally.any same then s
  else raise ⟨.divergence, g.start, g.start, some g.sender, some r.ref, none⟩ s

/-- R120 to R122: a MEASURE enters, replaces, is compared or is discarded in the line it belongs to. CLAIM CLASH names the sender of
the first item overlapped, and what follows a continues flag is not checked (DESIGN CHOICE, log entry 17). -/
def takeMeasure (r : LineRecord) (g : SegItem) (s : State) : State :=
  match r.tally.find? (fun x => x.overlaps g && x.sender? != some g.sender) with
  | some x =>
    if g.sender = s.port.station then raise (Cond.at .claimClash g.start x.sender?) s else s
  | none =>
    let own := r.tally.filter (fun x => x.overlaps g)
    if own = [] then enterSegment r g s
    else if r.state = .opened then replaceSegments r g own s
    else compareSegment r g s

/-- R119: the range is held from end to end and holds no SPACE, THIN, PARA or direction control. -/
def Window.admits (w : Window) (start : CopyIndex) (count : Nat) : Bool :=
  w.holds start && distance w.oldest start + count ≤ w.count &&
    ((w.itemsFrom start).take count).all (fun p =>
      match p.2.body with
      | .space | .thin _ | .para => false
      | b => !b.isDirection)

/-- R119: the line a MEASURE belongs to. -/
def TallyUnit.owning? (t : TallyUnit) (i : CopyIndex) : Option LineRecord :=
  match t.inHand.find? (fun r => r.spans i) with
  | some r => some r
  | none => t.openLine?.filter (fun r => atOrAfter i r.start)

/-! ### The coverage scan (7.3) -/

/-- What a scan reads besides the window: the space units, the governing item, and whether it stops once the line is decidable
and overfull, because the decision then does not wait (R125). -/
structure ScanEnv where
  unit : MeasureUnit
  gov  : Option CopyIndex
  ends : Bool
  deriving DecidableEq, Repr

/-- R125: the scan's width less shrink exceeds the measure. -/
def LineRecord.overfull (r : LineRecord) : Bool :=
  match r.params with
  | some p => p.measure < r.scan.width - r.scan.shrink
  | none => false

/-- R125. -/
def LineRecord.decidable (r : LineRecord) : Bool :=
  r.params.isSome && (r.scan.stop == .para || (r.overfull && !r.scan.opps.isEmpty))

/-- The scan point moves on by `n` items. -/
def Scan.moveOn (c : Scan) (n : Nat) : Scan := { c with point := c.point + BitVec.ofNat 16 n }

/-- R123, R124: the scan passes an item that is in the tally. -/
def Scan.addItem (c : Scan) (it : TallyItem) : Scan :=
  { c with point := c.point + BitVec.ofNat 16 it.range, width := c.width + it.natural, shrink := c.shrink + it.shrink }

/-- R124: the opportunity at a SPACE, and those inside a segment. -/
def Scan.oppsAt (c : Scan) (it : TallyItem) : List RecordedOpp :=
  match it with
  | .space i _ _ _ _ => [⟨i, none, c.width, c.shrink⟩]
  | .segment g => g.opps.map (fun o => ⟨g.start, some o, c.width + o.width, c.shrink⟩)
  | .thin _ _ _ => []

def LineRecord.pass (r : LineRecord) (it : TallyItem) : LineRecord :=
  { r with scan := { r.scan.addItem it with opps := r.scan.opps ++ r.scan.oppsAt it } }

/-- R122, R123: the scan meets a SPACE or THIN at or after the governing item; the answer names an item that raises TALLY
FULL. -/
def LineRecord.meet (r : LineRecord) (it : TallyItem) : LineRecord × Option CopyIndex :=
  if r.tally.any (fun x => x.start == it.start) then (r.pass it, none)
  else if r.tally.length < tallyLimit then ({ r with tally := insertItem it r.tally }.pass it, none)
  else ({ r with scan := r.scan.moveOn 1, fullRaised := true }, if r.fullRaised then none else some it.start)

/-- R123: the segment item that starts at `i`. -/
def LineRecord.segmentAt? (r : LineRecord) (i : CopyIndex) : Option TallyItem :=
  r.tally.find? (fun x => x.start == i && x.sender?.isSome)

/-- R123: `i` lies before the governing item. -/
def ScanEnv.leading (env : ScanEnv) (start i : CopyIndex) : Bool :=
  match env.gov with
  | some g => beforeIn start i g
  | none => true

/-- R123: a SPACE or THIN at the scan point. -/
def LineRecord.meetBlank (env : ScanEnv) (r : LineRecord) (i : CopyIndex) (it : TallyItem) : LineRecord × Option CopyIndex :=
  if env.leading r.start i then ({ r with scan := r.scan.moveOn 1 }, none) else r.meet it

/-- R123: the scan walks the items given; `skip` of them lie in a segment it has passed. The answer names the first item that
raises TALLY FULL. -/
def scanItems (env : ScanEnv) : Nat → List (CopyIndex × Item) → LineRecord → LineRecord × Option CopyIndex
  | _, [], r => ({ r with scan := { r.scan with stop := .copy } }, none)
  | skip + 1, _ :: rest, r => scanItems env skip rest r
  | 0, (i, it) :: rest, r =>
    if env.ends && r.overfull && !r.scan.opps.isEmpty then ({ r with scan := { r.scan with stop := .beyond } }, none)
    else
      match it.body, it.stamp with
      | .para, _ => ({ r with scan := { r.scan with stop := .para } }, none)
      | .character _, _ =>
        match r.segmentAt? i with
        | some g => scanItems env (g.range - 1) rest (r.pass g)
        | none => ({ r with scan := { r.scan with stop := .gap } }, none)
      | .space, some st =>
        let m := r.meetBlank env i (spaceItem env.unit i st)
        let x := scanItems env 0 rest m.1
        (x.1, m.2.orElse (fun _ => x.2))
      | .thin n, some st =>
        let m := r.meetBlank env i (thinItem i n st)
        let x := scanItems env 0 rest m.1
        (x.1, m.2.orElse (fun _ => x.2))
      | _, _ => scanItems env 0 rest { r with scan := r.scan.moveOn 1 }

/-- R117: a decision need not wait. -/
def TallyUnit.mayDecide (t : TallyUnit) : Bool := t.inHand.length < 2

/-- R116, R123: the open line's parameters are filled in and its scan runs. -/
def State.scanned (s : State) (r : LineRecord) : LineRecord × Option CopyIndex :=
  let r1 := r.fill s.window
  scanItems ⟨s.measure, s.window.governing? r.start, s.tally.mayDecide⟩ 0 (s.window.itemsFrom r1.scan.point) r1

/-- The scan of the open line runs, with what it raises. -/
def runScan (s : State) : State :=
  match s.tally.openLine? with
  | some r =>
    let x := s.scanned r
    let s1 := s.withTally (s.tally.withOpen x.1)
    match x.2 with
    | some i => raiseTallyFull x.1 i s1
    | none => s1
  | none => s

/-! ### The break decision (7.4) -/

/-- A break (R126): its kind, the end index, the opportunity taken (none at PARA) and the flags. -/
structure Break where
  kind    : BreakKind
  endIdx  : CopyIndex
  opp     : Option RecordedOpp
  last    : Bool
  overset : Bool
  deriving DecidableEq, Repr

/-- R124. -/
def RecordedOpp.fits (o : RecordedOpp) (measure : Nat) : Bool := o.reach - o.shrinkTo ≤ measure

/-- R126: the end index of a break at an opportunity. -/
def RecordedOpp.endIdx (o : RecordedOpp) : CopyIndex :=
  match o.inner with
  | none => o.place + 1
  | some x => o.place + BitVec.ofNat 16 x.offset

/-- R126: the break kind of an opportunity. -/
def RecordedOpp.kind (o : RecordedOpp) : BreakKind :=
  match o.inner with
  | none => .space
  | some x => match x.kind with | .softHyphen => .hyphen | .breakAfter => .breakAfter

/-- R126: the break of a decidable line with measure `m`. -/
def LineRecord.chooseBreak (r : LineRecord) (m : Nat) : Break :=
  if r.scan.stop = .para ∧ r.scan.width - r.scan.shrink ≤ m then
    ⟨.paragraph, r.scan.point + 1, none, true, false⟩
  else
    match (r.scan.opps.filter (fun o => o.fits m)).getLast? with
    | some o => ⟨o.kind, o.endIdx, some o, false, false⟩
    | none =>
      match r.scan.opps with
      | o :: _ => ⟨.overset, o.endIdx, some o, false, true⟩
      | [] => ⟨.overset, r.scan.point + 1, none, true, true⟩

/-- R127: what of an item before the end index stays: the break space does not, and a segment the break falls in is cut. -/
def Break.keep (b : Break) (it : TallyItem) : Option TallyItem :=
  match b.opp with
  | none => some it
  | some o =>
    if o.place = it.start then
      match o.inner, it with
      | none, _ => none
      | some x, .segment g => some (.segment { g with cut := some x })
      | some _, x => some x
    else some it

/-- R127: the items that stay in the decided line. -/
def LineRecord.keptItems (r : LineRecord) (b : Break) : List TallyItem :=
  (r.tally.filter (fun x => beforeIn r.start x.start b.endIdx)).filterMap b.keep

/-- R127: the segment items that move into the next line. -/
def LineRecord.movedItems (r : LineRecord) (b : Break) : List TallyItem :=
  r.tally.filter (fun x => !beforeIn r.start x.start b.endIdx && x.sender?.isSome)

/-- R127: the record of the line once decided, before its placements are counted. -/
def LineRecord.decidedAt (r : LineRecord) (b : Break) (st : Setting) : LineRecord :=
  { r with
    state := .decided
    endIdx := some b.endIdx
    tally := r.keptItems b
    decision := some ⟨b.kind, st⟩
    lastOfPara := b.last
    overset := b.overset
    loose := st.loose }

/-- R116, R127: the record of the line after a decided line. -/
def LineRecord.following (r : LineRecord) (b : Break) (base : Nat) : LineRecord :=
  LineRecord.opening (r.number + 1) b.endIdx (if b.last then none else some base) (r.movedItems b)

/-- R127, R73: the owner cuts the segment the break falls in. -/
def cutAtBreak (r : LineRecord) (b : Break) (s : State) : State :=
  match b.opp with
  | some ⟨place, some o, _, _⟩ =>
    if (r.segmentAt? place).any (fun x => x.sender? == some s.port.station) then cutSegment r.number place o s else s
  | _ => s

/-- R131: the VERDICT of a decided line. -/
def State.verdictFrame (s : State) (r : LineRecord) (e : CopyIndex) (p : LineParams) (d : Decision) : Frame :=
  s.port.frame .verdict (VerdictMsg.encode {
    line := r.number, gen := r.gen, start := r.start, endIdx := e, kind := d.kind, natural := d.setting.natural,
    setWidth := d.setting.setWidth, spaces := d.setting.spaces, points := d.setting.points,
    glyphs := s.glyphCount r.tally, leading := p.leading, lastOfPara := r.lastOfPara, overset := r.overset,
    loose := r.loose })

/-- The five figures of a decision (R133). -/
def LineRecord.figures? (r : LineRecord) : Option Figures :=
  match r.endIdx, r.decision with
  | some e, some d => some ⟨r.start, e, d.setting.natural, d.setting.spaces, d.setting.points⟩
  | _, _ => none

/-- R133: a verdict is compared with a held line's decision. -/
def compareVerdict (r : LineRecord) (sender : Nat) (f : Figures) (s : State) : State :=
  if r.figures? = some f then s
  else raise ⟨.divergence, r.start, r.start, some sender, some r.ref, none⟩ s

/-- R126: OVERSET. -/
def raiseOverset (r : LineRecord) (b : Break) (s : State) : State :=
  if b.overset then raise (Cond.at .overset ((r.tally.head?.map TallyItem.start).getD (b.endIdx - 1)) none) s else s

/-- R90, R91: LOOSE LINE. -/
def raiseLoose (r : LineRecord) (st : Setting) (s : State) : State :=
  if st.loose then raise (Cond.at .looseLine (st.looseItem.getD r.start) none) s else s

/-- R147: DIVERGENCE for an own item that matches no record. -/
def raiseUnmatched (r : LineRecord) (s : State) (it : TallyItem) : State :=
  raise ⟨.divergence, it.start, it.start, none, some r.ref, none⟩ s

/-- R139: the placement unit takes a decided line and reports at once when it sets nothing in it. -/
def placeDecided (r : LineRecord) (st : Setting) (s : State) : State :=
  let ps := s.placeStateOf r st
  { s with
    tally := s.tally.mapLine r.number (fun x => { x with placed := ps.carried })
    placement := { s.placement with lines := s.placement.lines ++ [ps] } }

/-- R166: the fence is cleared when its line is decided. -/
def TallyUnit.unfence (t : TallyUnit) (n : LineNumber) : TallyUnit := if t.fence = some n then { t with fence := none } else t

/-- R59: glyph records are held for a segment that starts in the span of line `d`. -/
def Shaper.holdsIn (h : Shaper) (d : LineRecord) : Bool :=
  h.records.any (fun r => d.spans r.start && !r.glyphs.isEmpty) || h.boxes.any (fun b => d.spans b.start && !b.glyphs.isEmpty)

/-- R126, R127: the open line `r`, with parameters `p`, is decided. The waiting record is checked when glyph records come to be
held for a line in hand (R59). The order here is DESIGN CHOICE, log entry 21: the VERDICT and the PLACE frames are handed over
and the next line opens before anything is raised, the DIVERGENCE of an unmatched item (R147) before the waiting verdicts are
compared (R133), and both before the next line is scanned and decided. -/
def decideLine (r : LineRecord) (p : LineParams) (s : State) : State :=
  let b := r.chooseBreak p.measure
  let st := lineSetting s.measure.multiple p b.last (r.keptItems b)
  let d := r.decidedAt b st
  let s1 := s.withTally ((s.tally.withOpen d).unfence r.number)
  let s2 := cutAtBreak r b s1
  let lost := d.tally.filter s2.unmatched
  let s3 := handOver .tally (s2.verdictFrame d b.endIdx p ⟨b.kind, st⟩) s2
  let s4 := openLine (r.following b p.base) (pump (placeDecided d st s3))
  let s5 := raiseLoose d st (raiseOverset d b s4)
  let s6 := lost.foldl (raiseUnmatched d) s5
  let s7 := d.verdicts.foldl (fun t v => compareVerdict d v.sender v.figures t) s6
  if s7.shaper.holdsIn d then checkWaitingStore s7 else s7

/-- R117, R125: the open line is decided when it is decidable and fewer than 2 lines are in hand. -/
def decideIfDue (s : State) : State :=
  match s.tally.openLine? with
  | some r =>
    match r.params with
    | some p => if s.working ∧ r.decidable ∧ s.tally.mayDecide then decideLine r p s else s
    | none => s
  | none => s

/-! ### The coverage timer (R128) -/

/-- R123: the open line is waiting for coverage; the answer is its number and gap. -/
def TallyUnit.waitingGap (t : TallyUnit) : Option (LineNumber × CopyIndex) :=
  match t.openLine? with
  | some r => if r.scan.stop = .gap then some (r.number, r.scan.point) else none
  | none => none

/-- R128: the timer's stage, given what the open line waited for before. -/
def TallyUnit.timeCoverage (t : TallyUnit) (before : Option (LineNumber × CopyIndex)) : TallyUnit :=
  match t.waitingGap with
  | none => { t with coverage := .idle }
  | some g => if before = some g ∧ t.coverage ≠ .idle then t else { t with coverage := .first }

/-- R128: a MEASURE restarts a timer that runs or has expired. -/
def TallyUnit.restartCoverage (t : TallyUnit) : TallyUnit :=
  if t.coverage = .idle then t else { t with coverage := .first }

/-! ### Everything that follows a change of the tally -/

/-- The gap mark check, the scan, and the decision it leads to. -/
def tallyRound (s : State) : State := decideIfDue (runScan (checkGapMark s))

/-- R117, R127: a decision opens a line that may itself be decidable; at most 2 decisions can follow one another, and a last
round scans the line they leave open. -/
def settleTally (s : State) : State :=
  if s.working then
    let t := tallyRound (tallyRound (tallyRound s))
    if t.working then t.withTally (t.tally.timeCoverage s.tally.waitingGap) else t
  else s

/-- Everything an event sets going in the other blocks, once its own effects are made. -/
def finish (s : State) : State := if s.working then pump (settle s) else startNextRead s

/-! ### The uncovered span (R129) -/

/-- R129: the item belongs to the uncovered span of line `r`. -/
def LineRecord.uncovered (r : LineRecord) (p : CopyIndex × Item) : Bool :=
  match p.2.body with
  | .character _ => p.2.owner == some .unclaimed && (r.segmentAt? p.1).isNone
  | .softHyphen => true
  | b => b.isSetting

/-- R129: a MEASURE of the box segment is queued or waits. -/
def BusPort.measureWaits (p : BusPort) (start : CopyIndex) : Bool :=
  p.tx.any (fun t => t.frame.cls == .measure && t.frame.segStart == start) ||
    p.waiting.any (fun w => w.frame.cls == .measure && w.frame.segStart == start)

/-- R129: the index is in a box that is being built or whose MEASURE is still queued. -/
def State.boxed (s : State) (i : CopyIndex) : Bool :=
  s.shaper.plan.any (fun b => distance b.start i < b.itemCount) ||
    s.shaper.boxes.any (fun b => distance b.start i < b.itemCount && (b.state != .ready || s.port.measureWaits b.start))

/-- The runs of items between those that `stop` names. -/
def runsBetween {α : Type} (stop : α → Bool) : List α → List α → List (List α)
  | run, [] => [run.reverse]
  | run, x :: rest => if stop x then run.reverse :: runsBetween stop [] rest else runsBetween stop (x :: run) rest

/-- R129: the box segments to build for the open line's uncovered span. -/
def State.boxesDue (s : State) (r : LineRecord) : List BoxPlan :=
  let span := (s.window.itemsFrom r.scan.point).takeWhile r.uncovered
  (runsBetween (fun p => s.boxed p.1) [] span).flatMap (cutBoxes none)

/-! ### Roster (R134) -/

/-- The roster stands in rising order of station number, with no duplicates. -/
def rosterInsert (n : Nat) : List Nat → List Nat
  | [] => [n]
  | x :: rest => if n = x then x :: rest else if n < x then n :: x :: rest else x :: rosterInsert n rest

/-- R134: a sender 0 to 7 is added. -/
def TallyUnit.enrol (t : TallyUnit) (sender : Nat) : TallyUnit :=
  if sender < 8 then { t with roster := rosterInsert sender t.roster } else t

/-- R134: a sender leaves the roster. -/
def TallyUnit.strike (t : TallyUnit) (sender : Nat) : TallyUnit := { t with roster := t.roster.filter (fun m => m != sender) }

/-! ### The verdict-wait timer (R135) -/

/-- R135: own verdict carried becomes yes for line `n`. -/
def VerdictWait.note (v : VerdictWait) (n : LineNumber) : VerdictWait :=
  match v.watched with
  | none => { v with watched := some n }
  | some w => if w = n then v else { v with next := some n }

/-- R135: the lines `gone` names are freed, recalled or killed. -/
def VerdictWait.cancel (v : VerdictWait) (gone : LineNumber → Bool) : VerdictWait :=
  if v.watched.any gone then ⟨none, none⟩ else if v.next.any gone then { v with next := none } else v

/-- R135: the timer runs out. -/
def VerdictWait.expire (v : VerdictWait) : VerdictWait := ⟨v.next, none⟩

/-- R135: a roster member has answered for a line. -/
def LineRecord.answeredBy (r : LineRecord) (m : Nat) : Bool := r.verdicts.any (fun v => v.sender == m && v.gen == r.gen)

/-- R135: a member that has not answered leaves the roster with STATION LOST. -/
def loseStation (r : LineRecord) (s : State) (m : Nat) : State :=
  raiseNamedTrap ⟨.stationLost, r.start, some m⟩ r.number (s.withTally (s.tally.strike m))

/-! ### Verdicts (7.6) -/

/-- R115, R132: the most verdicts a record stores. -/
def seenLimit : Nat := 8

/-- R132: a verdict is stored in place of an earlier one of its sender. -/
def LineRecord.store (r : LineRecord) (v : VerdictSeen) : LineRecord :=
  let others := r.verdicts.filter (fun x => x.sender != v.sender)
  if others.length < seenLimit then { r with verdicts := others ++ [v] } else r

/-- R166: the fence ignores a verdict. -/
def TallyUnit.fenced (t : TallyUnit) (m : VerdictMsg) : Bool :=
  t.fence.isSome &&
    match t.line? m.line with
    | none => true
    | some r => r.start != m.start

/-- R131, R162, R171: own verdict carried becomes yes for a line in hand. -/
def ownVerdictCarried (r : LineRecord) (s : State) : State :=
  let s1 := { s with
    tally := { s.tally.mapLine r.number (fun x => { x with ownVerdict := true }) with
      verdictWait := s.tally.verdictWait.note r.number }
    condition := if s.condition.killPeriod = some r.number then { s.condition with killPeriod := none } else s.condition }
  reportTraps r.number r.spans (trySendLine r.number s1)

/-- R133: a verdict for the taken line of its generation is compared with the summary. -/
def compareTaken (t : TakenSummary) (sender : Nat) (m : VerdictMsg) (s : State) : State :=
  if m.gen = t.gen ∧ m.figures ≠ t.figures then
    raiseNamedTrap ⟨.lateDivergence, t.figures.start, some sender⟩ t.number s
  else s

/-- R132, R166: a verdict that names the held record `r`. An own one is stored in an OPEN record like any other, and sets nothing else
there; an own one of a lower generation changes nothing (R131), and does not end the kill period (R171) either (both DESIGN
CHOICE, log entry 17). -/
def matchVerdict (r : LineRecord) (sender : Nat) (m : VerdictMsg) (s : State) : State :=
  if m.gen = r.gen then
    let s1 := s.withTally (s.tally.mapLine r.number (fun x => x.store ⟨sender, m.gen, m.figures⟩))
    if r.state = .opened then s1
    else
      let s2 := compareVerdict r sender m.figures s1
      if sender = s.port.station ∧ r.ownVerdict = false then ownVerdictCarried r s2 else s2
  else if m.gen < r.gen then s
  else raise ⟨.divergence, r.start, r.start, some sender, some r.ref, none⟩ s

/-- R132, R166: a verdict at a working station. -/
def takeVerdict (sender : Nat) (m : VerdictMsg) (s : State) : State :=
  if s.tally.fenced m then s
  else
    match s.tally.line? m.line with
    | some r => matchVerdict r sender m s
    | none =>
      match s.tally.taken.filter (fun t => t.number == m.line) with
      | some t => compareTaken t sender m s
      | none =>
        match s.tally.openLine? with
        | some r =>
          if lineAhead m.line r.number then raise ⟨.divergence, r.start, r.start, some sender, some r.ref, none⟩ s else s
        | none => s

/-! ### Taking lines (R136) -/

/-- A VERDICT or PLACE frame of line `n`. -/
def isLineFrame (n : LineNumber) (f : Frame) : Bool := (f.cls == .verdict || f.cls == .place) && f.lineNumber == n

/-- R76: segments that start before `e` are freed; an operation on one is abandoned. -/
def freeSegments (e : CopyIndex) (s : State) : State :=
  let gone (i : CopyIndex) : Bool := !atOrAfter i e
  let s1 := if s.shaper.op.any (fun o => gone o.start) then abandonShaping s else s
  let s2 := if s1.shaper.boxOp.any (fun o => gone o.start) then abandonBox s1 else s1
  s2.withShaper { s2.shaper with
    records := s2.shaper.records.filter (fun r => !gone r.start)
    boxes := s2.shaper.boxes.filter (fun b => !gone b.start)
    plan := s2.shaper.plan.filter (fun b => !gone b.start) }

/-- R114: the taken summary of a line. -/
def LineRecord.summary (r : LineRecord) : Option TakenSummary := r.figures?.map (fun f => ⟨r.number, r.gen, f⟩)

/-- What a freeing sets going at once, before anything the same event does after it: the records, store room and slots freed
go to what already waits for them (R36, R59, R74, R76, R104). -/
def settleFreed (s : State) : State := if s.working then settle s else s

/-- R136: one line in hand is freed. -/
def takeLine (s : State) (r : LineRecord) : State :=
  let e := r.endIdx.getD r.start
  let s1 := settleFreed (freeSegments e { s with
    port := s.port.remove (isLineFrame r.number)
    window := s.window.leaveBefore e
    placement := s.placement.release (fun n => n == r.number) })
  let s2 := reportTraps r.number r.spans s1
  { s2 with
    tally := { s2.tally with
      lines := s2.tally.lines.filter (fun x => x.number != r.number)
      taken := r.summary
      verdictWait := s2.tally.verdictWait.cancel (fun n => n == r.number) }
    condition := if s2.condition.killPeriod = some r.number then { s2.condition with killPeriod := none } else s2.condition }

/-- R136: the lines a TAKEN naming `n` frees, in line number order. -/
def TallyUnit.takenBy (t : TallyUnit) (n : LineNumber) : List LineRecord :=
  if t.inHand.any (fun r => r.number == n) then t.inHand.filter (fun r => !lineAhead r.number n) else []

end Sys2Proof.Machine
end

