-- ==== Sys2Proof/Machine/Recovery.lean ====
section
/-! DEFINITION. Recall and kill (9.4, 9.5), with what each does in the tally unit (R137), the shaper (R37, R77, R78), the
window (R15) and the bus port. -/

namespace Sys2Proof.Machine

/-- The line is `n` or a later one. -/
def fromLine (n m : LineNumber) : Bool := m == n || lineAhead m n

/-- R165, R168: the frames a recall or kill of line `n`, start index `start`, removes. -/
def isRecalled (n : LineNumber) (start : CopyIndex) (f : Frame) : Bool :=
  match f.cls with
  | .measure => atOrAfter f.segStart start
  | .verdict | .place | .lineRecall | .lineKill => fromLine n f.lineNumber
  | .clear | .hold | .release | .taken | .copy | .notice | .muster | .unassigned => false

/-! ### Undoing cuts (R78) -/

/-- R78: a cut record as it stands once its cut is undone: its former range when its split record is present, its own range
otherwise. -/
def SegRecord.rejoined (r : SegRecord) : SegRecord :=
  let whole :=
    match r.split with
    | some p => { r with endIdx := p.endIdx, itemCount := p.itemCount, charCount := p.charCount, continues := p.continues }
    | none => r
  { whole with
    state := .waiting, opps := [], elongCount := 0, glyphs := [], width := 0, elongWidth := 0, elongGlyph := 0,
    measureQueued := false, missesReported := true, split := none, cutLine := none }

/-- R78: the record was cut at the decision of line `n` or of a later line. -/
def SegRecord.cutFrom (n : LineNumber) (r : SegRecord) : Bool := r.cutLine.any (fromLine n)

/-- R78: `i` starts a piece cut from the record: it lies after the record's start and in its former range. -/
def SegRecord.holdsPiece (r : SegRecord) (i : CopyIndex) : Bool :=
  match r.split with
  | some p => i != r.start && inSpan i r.start (p.endIdx + 1)
  | none => false

/-- R78: a piece of a cut that the recall of line `n` undoes starts at `i`. -/
def Shaper.pieceAt (h : Shaper) (n : LineNumber) (i : CopyIndex) : Bool :=
  h.records.any (fun r => r.cutFrom n && r.holdsPiece i)

/-- R78: every cut made at the decision of line `n` or later is undone. -/
def undoCuts (n : LineNumber) (s : State) : State :=
  let piece (i : CopyIndex) : Bool := s.shaper.pieceAt n i
  let s1 := if s.shaper.op.any (fun o => piece o.start) then abandonShaping s else s
  s1.withShaper { s1.shaper with
    records := (s1.shaper.records.filter (fun r => !piece r.start)).map (fun r => if r.cutFrom n then r.rejoined else r)
    remainder := s1.shaper.remainder.filter (fun r => !piece r.start) }

/-! ### Republishing (R165) -/

/-- An own segment or a box segment whose MEASURE is queued again. -/
inductive Published where
  | own (r : SegRecord)
  | box (b : BoxRecord)
  deriving DecidableEq, Repr

def Published.start : Published → CopyIndex
  | .own r => r.start
  | .box b => b.start

def insertPublished (x : Published) : List Published → List Published
  | [] => [x]
  | y :: rest => if atOrAfter y.start x.start then x :: y :: rest else y :: insertPublished x rest

/-- R165: the READY segments that start at or after `start`, in start index order. -/
def Shaper.readyFrom (h : Shaper) (start : CopyIndex) : List Published :=
  ((h.records.filter (fun r => r.state == .ready && atOrAfter r.start start)).map Published.own ++
    (h.boxes.filter (fun b => b.state == .ready && atOrAfter b.start start)).map Published.box).foldr insertPublished []

def publish (s : State) : Published → State
  | .own r => publishRecord r s
  | .box b => publishBox b s

/-! ### The first recall (R165) -/

/-- R137: a recalled record, reopened at generation 1. -/
def LineRecord.reopened (r : LineRecord) : LineRecord :=
  { r with
    gen := 1, state := .opened, endIdx := none, tally := [], scan := Scan.atStart r.start, verdicts := [], decision := none,
    ownVerdict := false, placed := false, lastOfPara := false, overset := false, loose := false, fullRaised := false }

/-- R162: a trap that a recall removes. -/
def Trap.dropsAtRecall (start : CopyIndex) (t : Trap) : Bool :=
  atOrAfter t.item start &&
    match t.code with
    | .overset | .looseLine | .claimClash => true
    | _ => false

/-- R137: the records as the recall of `r` leaves them. Records stand in line number order (R114), so the later lines, which are
released, are those behind it in the list. -/
def recalledLines (r : LineRecord) (lines : List LineRecord) : List LineRecord :=
  lines.takeWhile (fun x => x.number != r.number) ++ [r.reopened]

/-- R109: a line that a recall sets back to OPEN is not a paragraph's first line that opens: a held MUSTER goes on waiting. -/
def BusPort.musterWaits (p : BusPort) (n : LineNumber) : BusPort :=
  { p with heldMuster := p.heldMuster.map (fun h => { h with since := some n }) }

/-- R165, up to the republishing: what the recall of `r` leaves in every block. -/
def recallBlocks (r : LineRecord) (s : State) : State :=
  undoCuts r.number { s with
    port := (s.port.remove (isRecalled r.number r.start)).musterWaits r.number
    tally := { s.tally with
      lines := recalledLines r s.tally.lines
      coverage := .idle
      verdictWait := s.tally.verdictWait.cancel (fromLine r.number)
      fence := some r.number }
    placement := s.placement.release (fromLine r.number)
    condition := { s.condition with reports := s.condition.reports.filter (fun t => !t.dropsAtRecall r.start) } }

/-- R165: the first recall of the line of record `r`. -/
def firstRecall (r : LineRecord) (s : State) : State :=
  let s1 := settleFreed (recallBlocks r s)
  settleTally (checkWaitingStore ((s1.shaper.readyFrom r.start).foldl publish s1))

/-! ### Kill (R168 to R171) -/

/-- R156, R162: the line a kill opens starts at `i`: the LONG HOLD traps raised against it name that item from now on
(log entry 19). -/
def nameUnreported (i : CopyIndex) (s : State) : State :=
  { s with
    placement := { s.placement with unreported := [] }
    condition := { s.condition with
      reports := (s.condition.reports ++ s.placement.unreported.map (fun h => (⟨.longHold, i, h⟩ : Trap))).take reportLimit } }

/-- R169: the kill `k` ends, its PARA held at `p`. The held MUSTER goes to the port before the pending notices that still wait; when
the PARA joins, those are queued already (noteJoinedPara), and the gap mark check follows in settleTally (DESIGN CHOICE, log entry
21). -/
def endKill (k : KillInProgress) (p : CopyIndex) (s : State) : State :=
  let s1 := nameUnreported (p + 1) { s with
    condition := { s.condition with kill := none }
    tally := { s.tally with fence := some k.next } }
  let s2 := releasePendingNotices (openLine (LineRecord.opening k.next (p + 1) none []) s1)
  s2.withWindow s2.window.purge

/-- R169: the kill in progress ends if its PARA is held. -/
def endKillIfDue (s : State) : State :=
  match s.condition.kill with
  | some k =>
    match k.para.orElse (fun _ => s.window.para? k.start) with
    | some p => endKill k p s
    | none => s.withWindow s.window.purge
  | none => s

/-- R37, R77: the shaper's part of a kill from `start`. -/
def killSegments (start : CopyIndex) (s : State) : State :=
  let gone (i : CopyIndex) : Bool := atOrAfter i start
  let s1 := if s.shaper.op.any (fun o => gone o.start) then abandonShaping s else s
  let s2 := if s1.shaper.boxOp.any (fun o => gone o.start) then abandonBox s1 else s1
  s2.withShaper { s2.shaper with
    records := (s2.shaper.records.filter (fun r => !gone r.start)).map
      (fun r => if gone (r.start + BitVec.ofNat 16 r.itemCount) then { r with split := none } else r)
    boxes := s2.shaper.boxes.filter (fun b => !gone b.start)
    plan := s2.shaper.plan.filter (fun b => !gone b.start)
    remainder := s2.shaper.remainder.filter (fun r => !gone r.start) }

/-- R168: the cut point returns to the item after the PARA when it lies beyond. -/
def Splitter.cutBack (p : Splitter) (para : Option CopyIndex) : Splitter :=
  match para with
  | some i => if atOrAfter p.cutPoint (i + 1) then { p with cutPoint := i + 1 } else p
  | none => p

/-- R162: the trap's item lies in the killed span. -/
def Trap.inKilled (start : CopyIndex) (para : Option CopyIndex) (t : Trap) : Bool :=
  atOrAfter t.item start && para.all (fun p => atOrAfter p t.item)

/-- R168: what a kill from line `n`, start index `start`, leaves in every block, its PARA held or not. -/
def killBlocks (n : LineNumber) (start : CopyIndex) (s : State) : State :=
  let para := s.window.para? start
  killSegments start { s with
    window := s.window.markKilled start para (s.condition.kill.map KillInProgress.start)
    splitter := s.splitter.cutBack para
    port := s.port.remove (isRecalled n start)
    tally := { s.tally with
      lines := s.tally.lines.filter (fun x => lineBehind x.number n && x.state != .opened)
      coverage := .idle
      verdictWait := s.tally.verdictWait.cancel (fromLine n) }
    placement := s.placement.release (fromLine n)
    condition := { s.condition with
      kill := some ⟨n, start, n + 1, para⟩
      killPeriod := some (n + 1)
      reports := s.condition.reports.filter (fun t => !t.inKilled start para) } }

/-- R167, R168: a kill from line `n`, start index `start`. -/
def startKill (n : LineNumber) (start : CopyIndex) (s : State) : State :=
  settleTally (endKillIfDue (settleFreed (killBlocks n start s)))

/-! ### Matching RECALL and KILL frames (R164, R167) -/

/-- R164: the line is the taken summary's or lies behind it. -/
def TallyUnit.isTaken (t : TallyUnit) (n : LineNumber) : Bool :=
  t.taken.any (fun x => n == x.number || lineBehind n x.number)

/-- R164, first case: LATE RECALL for an own RECALL of a taken line. -/
def lateRecall (sender : Nat) (m : RecallMsg) (s : State) : State :=
  if sender = s.port.station then raiseNamedTrap ⟨.lateRecall, m.start, none⟩ m.line s else s

/-- R164, fifth case: the record's line is in hand before the line of a kill in progress; the kill has released that line and
those after it (R168), so every line still in hand is. Once the kill has ended, a first recall of such a line is a first recall,
though killed items behind it may still wait to be freed (DESIGN CHOICE, log entry 18). -/
def State.beforeKill (s : State) (r : LineRecord) : Bool := s.condition.kill.isSome && r.state != .opened

/-- R164: a carried RECALL is matched. -/
def matchRecall (sender : Nat) (m : RecallMsg) (s : State) : State :=
  if s.tally.isTaken m.line then lateRecall sender m s
  else
    match s.tally.line? m.line with
    | none => s
    | some r =>
      if r.start ≠ m.start then s
      else if m.gen = 1 then startKill r.number r.start s
      else if r.gen = 1 then s
      else if s.beforeKill r then startKill r.number r.start s
      else firstRecall r s

/-- R167: a carried KILL is matched. -/
def matchKill (m : RecallMsg) (s : State) : State :=
  if s.tally.isTaken m.line then s
  else
    match s.tally.line? m.line with
    | none => s
    | some r => if r.start = m.start ∧ r.gen ≤ m.gen then startKill r.number r.start s else s

end Sys2Proof.Machine
end

