-- ==== Sys2Proof/Machine/Decoding.lean ====
section
/-! DEFINITION. A COPY frame at the head of the receive queue (1.1, 1.4): the sequence check, copy gaps, and the path of each
completed item through window, splitter, cutter and tally. -/

namespace Sys2Proof.Machine

/-! ### Copy gaps (R18, R19) -/

/-- R2: the copy bytes of a COPY frame that are decoded. -/
def copyBytes (payload : List Byte) : List Byte := (payload.drop 2).take frameItems

/-- R18: the bytes complete no item. -/
def completesNone : Decoder → List Byte → Bool
  | _, [] => true
  | d, b :: rest =>
    match d.byte b with
    | (_, some _) => false
    | (d1, none) => completesNone d1 rest

/-- R18: the last PARA from the open line's start index up to, not including, the gap point. -/
def Window.lastPara? (w : Window) (start gap : CopyIndex) : Option CopyIndex :=
  (((w.itemsBetween start gap).filter (fun p => p.2.body == .para)).getLast?).map (·.1)

/-- R18: a held item receives a gap mark. -/
def Window.markGap (w : Window) (i : CopyIndex) (g : GapNote) : Window :=
  w.rewrite (fun j it => if j = i then { it with gaps := it.gaps ++ [g] } else it)

/-- R18: the gap mark of a gap whose line starts after the PARA at `p`; `empty` says the gap frame completes no item. Where the
item at which that line starts is marked already, the mark stands and takes in this gap too. -/
def placeGapMark (p : CopyIndex) (g : GapNote) (empty : Bool) (s : State) : State :=
  if (s.window.item? (p + 1)).any (fun it => !it.gaps.isEmpty) then s.withWindow (s.window.markGap (p + 1) g)
  else if p + 1 = g.point ∨ empty then s.withDecoder { s.decoder with markNext := s.decoder.markNext ++ [g] }
  else s.withWindow (s.window.markGap (p + 1) g)

/-- R18: a copy gap at a working station; its gap point is the window's next index before the frame is decoded. -/
def activeGap (sender : Nat) (empty : Bool) (s : State) : State :=
  let g : GapNote := ⟨s.window.next, sender⟩
  match s.condition.kill with
  | some _ => raise (Cond.at .copyGap g.point (some sender)) s
  | none =>
    match s.tally.openLine? with
    | none => s
    | some r =>
      match s.window.lastPara? r.start g.point with
      | none => raise ⟨.copyGap, g.point, r.start, some sender, some r.ref, none⟩ s
      | some p => placeGapMark p g empty s

/-- R19: a copy gap at a LISTENING station empties the window. -/
def listeningGap (s : State) : State := s.withWindow (Window.leaveN s.window.count s.window)

/-! ### A completed item (R10) -/

/-- R13: a LISTENING station with a full window drops its oldest item. -/
def makeRoom (s : State) : State :=
  if s.condition.state = .listening ∧ windowSize ≤ s.window.count then s.withWindow s.window.leave else s

/-- R10, R13, R15, R18, R23: the item is stamped and joins the window; it is killed while a kill waits for its PARA. -/
def joinWindow (body : ItemBody) (s : State) : State :=
  let m := s.splitter.stamp s.decoder.pageBase body
  { s with
    splitter := m.splitter
    decoder := { s.decoder with pageBase := m.page, markNext := [] }
    window := s.window.add ⟨body, m.owner, m.stamp, s.condition.kill.isSome, s.decoder.markNext⟩ }

/-- R27: a push that the splitter refuses raises EMBED OVERFLOW, but for an item that joins killed (R15). -/
def raiseRefused (sender : Nat) (body : ItemBody) (before s : State) : State :=
  if (before.splitter.stamp before.decoder.pageBase body).refused && before.condition.kill.isNone then
    raise (Cond.at .embedOverflow before.window.next (some sender)) s
  else s

/-- R15, R160, R169: a PARA that joins at `p` is the PARA of the kill in progress, and of every pending abort notice. -/
def noteJoinedPara (p : CopyIndex) (s : State) : State :=
  queueNoticesAt p (s.withCondition { s.condition with
    kill := s.condition.kill.map (fun k => { k with para := k.para.orElse (fun _ => some p) }) })

/-- R2, R10: everything a completed item sets going before the next copy byte is decoded. -/
def completeItem (sender : Nat) (body : ItemBody) (s : State) : State :=
  let s1 := makeRoom s
  let s2 := raiseRefused sender body s1 (joinWindow body s1)
  let s3 := if body = .para then noteJoinedPara s1.window.next s2 else s2
  settleTally (resumeCutting (endKillIfDue s3))

/-! ### The frame (R2, R17) -/

/-- R2, R180: the station decodes copy. -/
def State.decodes (s : State) : Bool := s.working || s.condition.state == .listening

/-- R2, R3: the copy bytes in order. A withdrawal that an item brings about ends the decoding (R173). -/
def decodeBytes (sender : Nat) : List Byte → State → State
  | [], s => s
  | b :: rest, s =>
    if s.decodes then
      match s.decoder.byte b with
      | (d, none) => decodeBytes sender rest (s.withDecoder d)
      | (d, some body) => decodeBytes sender rest (completeItem sender body (s.withDecoder d))
    else s

/-- R17: the sequence number is checked, and what a gap does. -/
def checkSequence (sender : Nat) (payload : List Byte) (s : State) : State :=
  let q := wordField payload 0
  let s1 := s.withDecoder (s.decoder.sequence q)
  if s.decoder.inSequence q then s1
  else if s.condition.state = .listening then listeningGap s1
  else activeGap sender (completesNone s1.decoder (copyBytes payload)) s1

/-- R2: a COPY frame is decoded as one event. -/
def decodeCopy (f : Frame) (s : State) : State :=
  if f.payload.length < 2 then s
  else decodeBytes f.sender (copyBytes f.payload) (checkSequence f.sender f.payload s)

end Sys2Proof.Machine
end

