-- ==== Sys2Proof/Machine/Start.lean ====
section
/-! DEFINITION. Start-up (chapter 10): RESET, the profile read and its checks, CLEAR, joining and removal of the cartridge. -/

namespace Sys2Proof.Machine

/-! ### RESET (R176) -/

/-- R39, R176: a read under way at the reset line runs on, and its word is discarded. -/
def CartridgePort.atResetLine (p : CartridgePort) : CartridgePort :=
  { CartridgePort.initial with outstanding := p.outstanding.map (fun o => { o with abandoned := true }) }

/-- R176: every block at its power-on values; the pins, the cartridge read given and the commands waiting stay. -/
def blocksAtReset (cart : CartridgePort) (s : State) : State :=
  { State.reset with pins := s.pins, cartridge := cart, choices := s.choices, pending := s.pending }

/-! ### The profile (R177 to R179, 12.3) -/

/-- The fields of the profile record, as 12.3 places them. -/
structure Profile where
  version   : Nat
  size      : Nat
  count     : Nat
  fallback  : Bool
  natural   : Nat
  minimum   : Nat
  maximum   : Nat
  multiple  : Nat
  levels    : Levels
  response  : HoldResponse
  claims    : List (Nat × Nat × Nat × Nat)
  directory : List Nat
  deriving DecidableEq, Repr

/-- The number of words the profile reader requests (R177). -/
def profileLength : Nat := 96

/-- 12.3: claim place `i`, as first code, last code, script-class byte and default-slot byte. -/
def claimPlace (ws : List CartWord) (i : Nat) : Nat × Nat × Nat × Nat :=
  (pairWhole (wordAt ws (24 + 5 * i)) (wordAt ws (25 + 5 * i)),
   pairWhole (wordAt ws (26 + 5 * i)) (wordAt ws (27 + 5 * i)),
   (wordAt ws (28 + 5 * i)).toNat / 256, (wordAt ws (28 + 5 * i)).toNat % 256)

/-- R179: the hold response. -/
def responseOf : Nat → HoldResponse
  | 1 => .atLineEnd
  | 2 => .replaceLine
  | _ => .atFrame

/-- 12.3, R179: the profile that words 0 to 95 hold. Only the claims that the claim count covers are read. -/
def Profile.ofWords (ws : List CartWord) : Profile where
  version := (wordAt ws 0).toNat
  size := pairWhole (wordAt ws 1) (wordAt ws 2)
  count := (wordAt ws 3).toNat
  fallback := wordAt ws 4 != 0
  natural := (wordAt ws 5).toNat
  minimum := (wordAt ws 6).toNat
  maximum := (wordAt ws 7).toNat
  multiple := (wordAt ws 8).toNat
  levels := ⟨(wordAt ws 9).toNat % 16, (wordAt ws 10).toNat % 16, (wordAt ws 11).toNat % 16, (wordAt ws 12).toNat % 16,
    (wordAt ws 13).toNat % 16, (wordAt ws 14).toNat % 16, (wordAt ws 15).toNat % 16⟩
  response := responseOf (wordAt ws 16).toNat
  claims := (List.range (min 8 (wordAt ws 3).toNat)).map (claimPlace ws)
  directory := (List.range 16).map (fun i => pairAddr (wordAt ws (64 + 2 * i)) (wordAt ws (65 + 2 * i)))

/-- The highest character code (00_scope.md). -/
def maxCode : Nat := 1048575

/-- R178: the checks on a claim. -/
def claimPasses (c : Nat × Nat × Nat × Nat) : Bool :=
  c.1 ≤ c.2.1 && c.1 ≤ maxCode && c.2.1 ≤ maxCode && c.2.2.1 < 4

/-- R178: no check refuses the profile. -/
def Profile.passes (p : Profile) : Bool :=
  p.version == 3 && p.size != 0 && p.count ≤ 8 && (p.count != 0 || p.fallback) && p.claims.all claimPasses &&
    p.natural ≤ 1023 && p.minimum ≤ 1023 && p.maximum ≤ 1023 && p.minimum ≤ p.natural && p.natural ≤ p.maximum &&
    p.maximum != 0

/-- 12.3: the script class a class byte names. -/
def ScriptClass.ofCode : Nat → ScriptClass
  | 0 => .l
  | 1 => .lr
  | 2 => .rn
  | _ => .rj

/-- R179: a claim as the splitter holds it. -/
def claimOf (c : Nat × Nat × Nat × Nat) : Claim := ⟨c.1, c.2.1, ScriptClass.ofCode c.2.2.1, c.2.2.2 % 16⟩

/-- R39: the largest cartridge size used. -/
def maxCartridge : Nat := 2097152

/-- R179: each block is handed its part of a profile that passes. -/
def distribute (p : Profile) (ws : List CartWord) (s : State) : State :=
  { s with
    cartridge := { s.cartridge with
      profileCopy := ws.take 64, directory := p.directory, size := min maxCartridge p.size, profileWords := none }
    splitter := { s.splitter with claims := p.claims.map claimOf, fallback := p.fallback }
    measure := { s.measure with
      natural := p.natural, minimum := p.minimum, maximum := p.maximum, multiple := min 3 p.multiple }
    port := { s.port with levels := some p.levels }
    placement := { s.placement with response := p.response } }

def State.entering (s : State) (x : StationState) : State := s.withCondition { s.condition with state := x }

/-- R177, R178: the profile read completes. -/
def profileRead (ws : List CartWord) (s : State) : State :=
  if (Profile.ofWords ws).passes then (distribute (Profile.ofWords ws) ws s).entering .listening
  else (s.withCartridge { s.cartridge with profileWords := none }).entering .refused

/-- R54, R177: entry to PROFILING. -/
def enterProfiling (s : State) : State :=
  if s.pins.cartridgePresent then
    startNextRead ((s.withCartridge ({ s.cartridge with profileWords := some [] }.request .profile 0)).entering .profiling)
  else s.entering .refused

/-- R40, R177: in PROFILING the profile reader receives a word. -/
def receiveProfileWord (w : CartWord) (s : State) : State :=
  match s.cartridge.profileWords with
  | none => s
  | some ws =>
    if s.condition.state ≠ .profiling then s
    else if ws.length + 1 = profileLength then profileRead (ws ++ [w]) s
    else s.withCartridge ({ s.cartridge with profileWords := some (ws ++ [w]) }.request .profile (ws.length + 1))

/-! ### Words for the operations (R40) -/

/-- R40: the shaping operation receives a word. -/
def receiveShaperWord (w : CartWord) (s : State) : State :=
  resumeShaping restartFuel (s.withShaper { s.shaper with op := s.shaper.op.map (fun o => { o with words := o.words ++ [w] }) })

/-- R40: the box build receives a word. -/
def receiveBoxWord (w : CartWord) (s : State) : State :=
  resumeBox (s.withShaper { s.shaper with boxOp := s.shaper.boxOp.map (fun o => { o with words := o.words ++ [w] }) })

/-- R40: the word of the read outstanding is handed to its requester, or discarded. -/
def receiveWord (o : OutstandingRead) (w : CartWord) (s : State) : State :=
  let s1 := s.withCartridge { s.cartridge with outstanding := none }
  if o.abandoned then s1
  else
    match o.who with
    | .profile => receiveProfileWord w s1
    | .shaper => receiveShaperWord w s1
    | .box => receiveBoxWord w s1

/-! ### Cartridge removal (R54) -/

/-- R54: every operation is abandoned and every request removed. -/
def abandonCartridgeWork (s : State) : State :=
  let s1 := abandonBox (abandonShaping s)
  s1.withCartridge { s1.cartridge.abandon .profile with waiting := [], profileWords := none }

/-- R54: what the fall does in each state. -/
def removeCartridge (s : State) : State :=
  match s.condition.state with
  | .profiling => s.entering .refused
  | .listening => enterWithdrawn s
  | .active => raise (Cond.at .cartridgeRemoved s.window.next none) s
  | .reset | .refused | .withdrawn => s

/-! ### CLEAR (R183, R184) -/

/-- R39: the cartridge port at CLEAR. -/
def CartridgePort.cleared (p : CartridgePort) : CartridgePort :=
  { p with usable := allUsable, waiting := [], outstanding := p.outstanding.map (fun o => { o with abandoned := true }) }

/-- R184, before line 0 opens: every block at its value after CLEAR. -/
def clearedBlocks (s : State) : State :=
  { s with
    port := { s.port with tx := [], waiting := [], clearPending := s.port.rx.any Frame.isClear, heldMuster := none,
                          withdrawalPending := false }
    decoder := Decoder.initial
    window := Window.empty
    splitter := Splitter.initial s.splitter.claims s.splitter.fallback true
    cartridge := s.cartridge.cleared
    shaper := Shaper.initial
    measure := s.measure.idle
    tally := TallyUnit.initial
    placement := PlacementUnit.initial s.placement.response
    condition := ConditionUnit.initial .active }

/-- R182, R184: the station is ACTIVE at line 0, and a MUSTER is queued. -/
def clearStation (s : State) : State :=
  settleTally (queueMuster (openLine (LineRecord.opening 0 0 none []) (clearedBlocks s)))

/-- R55, R102: a CLEAR handled by a WITHDRAWN station whose cartridge is absent. -/
def clearWithdrawn (s : State) : State :=
  s.withPort { s.port.keepClears with clearPending := s.port.rx.any Frame.isClear }

/-- R183: a CLEAR at the head of the receive queue has been removed from it. -/
def handleClear (s : State) : State :=
  match s.condition.state with
  | .active | .listening => clearStation s
  | .withdrawn => if s.pins.cartridgePresent then clearStation s else clearWithdrawn s
  | .reset | .profiling | .refused => s

/-! ### Joining (R19, R181) -/

/-- R19: the window once the items up to and including the anchor have left and the rest are renumbered from `e`. -/
def Window.anchored (w : Window) (anchor e : CopyIndex) : Window :=
  { Window.leaveN (distance w.oldest anchor + 1) w with oldest := e }

/-- R181: the window at the join, if the station can join at a verdict whose end index is `e`. -/
def State.joinAt (s : State) (e : CopyIndex) : Option Window :=
  match s.window.anchor? with
  | none => none
  | some a => if s.copyReserve ≤ (s.window.anchored a e).free then some (s.window.anchored a e) else none

/-- R151, R181: the hold state a station enters ACTIVE with. -/
def applyHoldAtEntry (s : State) : State :=
  if s.placement.held then applyHold (s.withPlacement { s.placement with longHold := ⟨true, false⟩ }) else s

/-- R181: the station joins after line `n`, its window anchored as `w` at end index `e`. -/
def joinStation (n : LineNumber) (e : CopyIndex) (w : Window) (s : State) : State :=
  let s1 := { s with
    window := w
    splitter := { s.splitter with cutPoint := e, cutting := true }
    tally := { TallyUnit.initial with roster := s.tally.roster }
    condition := ConditionUnit.initial .active }
  let s2 := queueMuster (applyHoldAtEntry (openLine (LineRecord.opening (n + 1) e none []) s1))
  settleTally (resumeCutting s2)

/-- R181: a verdict that ends a paragraph is offered for joining. -/
def offerJoin (m : VerdictMsg) (s : State) : State :=
  if m.lastOfPara then
    match s.joinAt m.endIdx with
    | some w => joinStation m.line m.endIdx w s
    | none => s
  else s

end Sys2Proof.Machine
end

