-- ==== Sys2Proof/WellFormed.lean ====
section
/-! DEFINITION. Which commands the part can meet at all. -/

namespace Sys2Proof

/-- The most payload bytes a frame can have: the payload length field has six bits (R95, R185). -/
def maxPayload : Nat := 63

/-- A command is well formed unless it is a frame on the bus longer than its six-bit length field can say (R185). Every
other operand is as wide as its pins or its word. -/
def Instr.wellFormed : Instr → Bool
  | .frameReceived _ payload _ _ => payload.length ≤ maxPayload
  | .powerOn | .resetLineAsserted | .resetLineReleased _ | .cartridgePresentFall | .cartridgePresentRise
  | .cartridgeReadComplete _ | .frameAttemptStart | .frameAttemptEnd _ | .clearFrame | .copyFrame
  | .cuttingResumed | .shapingStart | .storeWaitGranted | .shapingComplete | .boxBuildStart
  | .boxBuildComplete | .pendingRemainderRecord | .waitingFrameEnters | .measureFrame | .deferredDecision
  | .deferredCopyGap | .verdictFrame | .trapReport | .musterFrame | .noticeFrame | .takenFrame | .holdFrame
  | .releaseFrame | .placeFrame | .recallFrame | .killFrame | .killEnd | .heldMusterRequeued
  | .pendingAbortNotice | .unassignedClass | .coverageTimerFirstEnd | .coverageTimerSecondEnd
  | .verdictWaitExpiry | .longHoldExpiry => true

end Sys2Proof
end

