-- ==== Sys2Proof/Machine/BusCommands.lean ====
section
/-! DEFINITION. The commands of the bus: a send attempt and its end, and a frame that another participant sent. -/

namespace Sys2Proof.Machine

/-! ### Offering a frame (R105) -/

/-- R105: the station offers frames in ACTIVE, and with a withdrawal pending its NOTICE, but not while CLEAR pending is yes. -/
def State.offers (s : State) : Bool :=
  (s.condition.state == .active) && !s.port.clearPending && !s.port.tx.any (fun t => t.inFlight)

/-- R105: the first frame whose held-back mark is clear becomes the frame in flight. -/
def markOffered : List TxFrame → List TxFrame
  | [] => []
  | t :: rest => if t.heldBack then t :: markOffered rest else { t with inFlight := true } :: rest

/-- FRAME_ATTEMPT_START (R98, R105). -/
def execFrameAttemptStart (s : State) : Host.Outcome State Fault Refusal :=
  .next (if s.offers then s.withPort { s.port with tx := markOffered s.port.tx } else s)

/-! ### The end of an attempt (R106 to R110, R112) -/

/-- The frame in flight leaves the queue. -/
def BusPort.flightLeaves (p : BusPort) : BusPort := { p with tx := p.tx.filter (fun t => !t.inFlight) }

/-- The frame in flight stays in its place, with the attempt count given. -/
def BusPort.flightStays (p : BusPort) (attempts : Nat) : BusPort :=
  { p with tx := p.tx.map (fun t => if t.inFlight then { t with inFlight := false, attempts := attempts } else t) }

/-- R108: the item at `i` lies in a killed span. -/
def Window.killedAt (w : Window) (i : CopyIndex) : Bool := (w.item? i).any (·.killed)

/-- R108: a dropped MEASURE raises FRAME DROPPED against the line of its start index, if that line is open or in hand. -/
def dropMeasure (i : CopyIndex) (s : State) : State :=
  if s.window.killedAt i then s
  else
    match lineConcerned s i with
    | some r => if r.start.isNone then s else raise ⟨.frameDropped, i, i, none, some r, none⟩ s
    | none => s

/-- R108: a dropped VERDICT or PLACE of line `n`, generation `g`. -/
def dropLineFrame (n : LineNumber) (g : Nat) (s : State) : State :=
  match s.tally.line? n with
  | some r => if g < r.gen then s else raise ⟨.frameDropped, r.start, r.start, none, some r.ref, none⟩ s
  | none => s

/-- R109: a dropped MUSTER is held. -/
def holdMuster (f : Frame) (s : State) : State :=
  if s.accepts then s.withPort { s.port with heldMuster := some ⟨f, s.tally.openLine?.map LineRecord.number⟩ } else s

/-- R110: a dropped RECALL or KILL. -/
def linkLost (f : Frame) (s : State) : State :=
  raise ⟨.linkLost, wordField f.payload 3, wordField f.payload 3, none,
    some ⟨f.lineNumber, numField f.payload 2 1, some (wordField f.payload 3)⟩, none⟩ s

/-- R108 to R110: what the drop of a frame causes. -/
def dropFrame (f : Frame) (s : State) : State :=
  match f.cls with
  | .measure => dropMeasure f.segStart s
  | .verdict | .place => dropLineFrame f.lineNumber (numField f.payload 2 1) s
  | .muster => holdMuster f s
  | .lineRecall | .lineKill => linkLost f s
  | .clear | .hold | .release | .taken | .copy | .notice | .unassigned => s

/-- R112: the frame is the withdraw NOTICE: the only frame of the queue that the withdrawal has not removed. -/
def State.endsWithdrawal (s : State) (t : TxFrame) : Bool :=
  s.condition.state == .active && s.port.withdrawalPending && !t.removed

/-- R106, R107: the attempt was lost, broken, or spoiled on a frame whose removal is noted. -/
def attemptFails (t : TxFrame) (s : State) : State :=
  s.withPort (if t.removed then s.port.flightLeaves else s.port.flightStays t.attempts)

/-- R106: a frame sent whole is spoiled. The slot a dropped frame frees goes to a waiting frame (R104) before its condition makes
frames of its own. -/
def attemptSpoiled (t : TxFrame) (s : State) : State :=
  if t.removed then attemptFails t s
  else if t.attempts + 1 < maxSpoils then s.withPort (s.port.flightStays (t.attempts + 1))
  else if s.endsWithdrawal t then enterWithdrawn (s.withPort s.port.flightLeaves)
  else dropFrame t.frame (settleSlots (s.withPort s.port.flightLeaves))

/-- R100, R102: a carried frame joins the receive queue. -/
def BusPort.place (p : BusPort) (f : Frame) : BusPort := if f.isClear then p.receiveClear f else p.receive f

/-- R100, R102: the station takes a frame of its own that is carried: in ACTIVE, and behind a CLEAR once a withdrawal began. -/
def State.takesOwn (s : State) : Bool := s.working || (s.withdrawing && s.port.clearPending)

/-- R106: a frame sent whole is carried, and joins the station's own receive queue when the station takes it. -/
def attemptCarried (t : TxFrame) (s : State) : State :=
  let s1 := s.withPort s.port.flightLeaves
  if s.endsWithdrawal t then enterWithdrawn s1
  else if s.takesOwn then s1.withPort (s1.port.place t.frame)
  else s1

/-- R106: the outcome of the attempt on the frame in flight. -/
def endAttempt (t : TxFrame) (o : AttemptOutcome) (s : State) : State :=
  match o with
  | .lost | .broken => attemptFails t s
  | .whole spoiled => if spoiled || s.spoils t.frame.cls true then attemptSpoiled t s else attemptCarried t s

/-- FRAME_ATTEMPT_END (R106). -/
def execFrameAttemptEnd (o : AttemptOutcome) (s : State) : Host.Outcome State Fault Refusal :=
  .next (
    match s.port.tx.find? (fun t => t.inFlight) with
    | some t => finish (endAttempt t o s)
    | none => s)

/-! ### A frame of another participant (R99, R100, R102, R111) -/

/-- R102: a carried frame at a station that is in WITHDRAWN or has a withdrawal pending. -/
def carriedWithdrawing (f : Frame) (right : Bool) (s : State) : State :=
  if s.port.clearPending then
    if f.sender = s.port.station then s else s.withPort (s.port.place f)
  else if f.isClear && right then s.withPort (s.port.place f)
  else s

/-- R100, R111: a carried frame that another participant sent. -/
def carryFrame (f : Frame) (right : Bool) (s : State) : State :=
  if s.withdrawing then carriedWithdrawing f right s
  else
    match s.condition.state with
    | .reset | .profiling | .refused | .withdrawn => s
    | .listening => if f.sender = s.port.station then enterWithdrawn s else s.withPort (s.port.place f)
    | .active =>
      if f.sender = s.port.station then raise (Cond.at .twinStation s.window.next (some s.port.station)) s
      else s.withPort (s.port.place f)

/-- R99, R100: a frame that any receiver spoils is taken by none. -/
def receiveFrame (word : ArbWord) (payload : List Byte) (check : BitVec 16) (spoiled : Bool) (s : State) : State :=
  let right := check == checkWord word payload
  if spoiled || s.spoils (wordClass word) right then s
  else carryFrame ⟨word, payload⟩ right s

/-- FRAME_RECEIVED (R99): refused only where no frame on the bus can have such a payload (R185). -/
def execFrameReceived (word : ArbWord) (payload : List Byte) (check : BitVec 16) (spoiled : Bool) (s : State) :
    Host.Outcome State Fault Refusal :=
  if payload.length ≤ maxPayload then .next (receiveFrame word payload check spoiled s) else .refused .payloadTooLong

end Sys2Proof.Machine
end

