-- ==== Sys2Proof/Machine/FrameCommands.lean ====
section
/-! DEFINITION. The commands that handle the frame at the head of the receive queue (R101), one for each class. -/

namespace Sys2Proof.Machine

/-- R101, R180: the station hands frames from its receive queue to its blocks. -/
def State.takes (s : State) : Bool := s.working || s.condition.state == .listening

/-- R101: the frame at the head of the receive queue, when it is of class `c` and the station takes it, is removed and handled
in full. -/
def takeHead (c : FrameClass) (act : Frame → State → State) (s : State) : State :=
  match s.port.rx with
  | f :: rest => if f.cls = c ∧ s.takes then finish (act f (s.withPort { s.port with rx := rest })) else s
  | [] => s

/-! ### CLEAR (R183) -/

/-- R183: CLEAR is also handled in WITHDRAWN and while a withdrawal is pending. -/
def State.takesClear (s : State) : Bool :=
  match s.condition.state with
  | .active | .listening | .withdrawn => true
  | .reset | .profiling | .refused => false

/-- CLEAR_FRAME (R183). -/
def execClearFrame (s : State) : Host.Outcome State Fault Refusal :=
  .next (
    match s.port.rx with
    | f :: rest =>
      if f.cls = .clear ∧ s.takesClear then finish (handleClear (s.withPort { s.port with rx := rest })) else s
    | [] => s)

/-! ### COPY (R2) -/

/-- COPY_FRAME (R2). -/
def execCopyFrame (s : State) : Host.Outcome State Fault Refusal := .next (takeHead .copy decodeCopy s)

/-! ### MEASURE (R119) -/

/-- R119: a MEASURE at a working station enters a line's tally or is discarded. -/
def routeMeasure (sender : Nat) (m : MeasureMsg) (s : State) : State :=
  if s.window.admits m.start m.count then
    match s.tally.owning? m.start with
    | some r =>
      takeMeasure r ⟨sender, m.start, m.count, m.level, m.width, m.opps, m.elongCount, m.elongWidth, m.continues, none⟩ s
    | none => s
  else s

/-- R119, R128, R180, R186. -/
def handleMeasure (f : Frame) (s : State) : State :=
  match MeasureMsg.parse f.payload with
  | some m =>
    if s.working then settleTally (routeMeasure f.sender m (s.withTally s.tally.restartCoverage)) else s
  | none => s

/-- MEASURE_FRAME (R119). -/
def execMeasureFrame (s : State) : Host.Outcome State Fault Refusal := .next (takeHead .measure handleMeasure s)

/-! ### VERDICT (R132) -/

/-- R132, R134, R180, R186. -/
def handleVerdict (f : Frame) (s : State) : State :=
  match VerdictMsg.parse f.payload with
  | some m =>
    let s1 := s.withTally (s.tally.enrol f.sender)
    if s.working then takeVerdict f.sender m s1 else offerJoin m s1
  | none => s

/-- VERDICT_FRAME (R132). -/
def execVerdictFrame (s : State) : Host.Outcome State Fault Refusal := .next (takeHead .verdict handleVerdict s)

/-! ### MUSTER and NOTICE (R134, R182) -/

def handleMuster (f : Frame) (s : State) : State :=
  if musterFormed f.payload then s.withTally (s.tally.enrol f.sender) else s

/-- MUSTER_FRAME (R182). -/
def execMusterFrame (s : State) : Host.Outcome State Fault Refusal := .next (takeHead .muster handleMuster s)

/-- R134: the withdraw codes. -/
def isWithdrawCode (n : Nat) : Bool := 48 ≤ n && n ≤ 52

def handleNotice (f : Frame) (s : State) : State :=
  match parseNotice f.payload with
  | some n => if isWithdrawCode n && f.sender < 8 then s.withTally (s.tally.strike f.sender) else s
  | none => s

/-- NOTICE_FRAME (R134). -/
def execNoticeFrame (s : State) : Host.Outcome State Fault Refusal := .next (takeHead .notice handleNotice s)

/-! ### TAKEN (R136) -/

def handleTaken (f : Frame) (s : State) : State :=
  match parseTaken f.payload with
  | some n => if s.working then settleTally ((s.tally.takenBy n).foldl takeLine s) else s
  | none => s

/-- TAKEN_FRAME (R136). -/
def execTakenFrame (s : State) : Host.Outcome State Fault Refusal := .next (takeHead .taken handleTaken s)

/-! ### HOLD and RELEASE (R151) -/

/-- R151: a HOLD handled while held changes nothing; the hold response is applied and the timer started in ACTIVE alone. -/
def handleHold (f : Frame) (s : State) : State :=
  if s.placement.held then s
  else
    let s1 := s.withPlacement { s.placement with held := true, holder := some f.sender }
    if s.working then applyHold (s1.withPlacement { s1.placement with longHold := ⟨true, false⟩ }) else s1

/-- HOLD_FRAME (R151). -/
def execHoldFrame (s : State) : Host.Outcome State Fault Refusal := .next (takeHead .hold handleHold s)

/-- R151: a RELEASE handled while not held changes nothing. -/
def handleRelease (_f : Frame) (s : State) : State :=
  if s.placement.held then
    let s1 := s.withPlacement { s.placement with held := false, holder := none, longHold := ⟨false, false⟩ }
    if s.working then applyRelease s1 else s1
  else s

/-- RELEASE_FRAME (R151). -/
def execReleaseFrame (s : State) : Host.Outcome State Fault Refusal := .next (takeHead .release handleRelease s)

/-! ### PLACE (R149) -/

/-- R149: `n` entries from `i` on are marked carried. -/
def markEntries (marks : List Bool) (i n : Nat) : List Bool :=
  marks.zipIdx.map (fun x => x.1 || (i ≤ x.2 && x.2 < i + n))

/-- R149: the state of a line once a PLACE frame of its present round is handled. -/
def PlaceState.afterCarry (p : PlaceState) (m : PlaceMsg) : PlaceState :=
  let marks := markEntries p.marks m.first m.entries.length
  { p with marks := marks, carried := marks.all id }

/-- R149: an own PLACE frame. -/
def carryPlace (m : PlaceMsg) (s : State) : State :=
  match s.placement.line? m.line with
  | some p =>
    if p.gen = m.gen ∧ p.toReplace = false then
      let q := p.afterCarry m
      let s1 := s.withPlacement (s.placement.mapLine m.line (fun _ => q))
      if q.carried then
        trySendLine m.line (s1.withTally (s1.tally.mapLine m.line (fun r => { r with placed := true })))
      else s1
    else s
  | none => s

/-- R149, R180, R186. -/
def handlePlace (f : Frame) (s : State) : State :=
  match PlaceMsg.parse f.payload with
  | some m => if s.working ∧ f.sender = s.port.station then carryPlace m s else s
  | none => s

/-- PLACE_FRAME (R149). -/
def execPlaceFrame (s : State) : Host.Outcome State Fault Refusal := .next (takeHead .place handlePlace s)

/-! ### RECALL and KILL (R164, R167) -/

def handleRecall (f : Frame) (s : State) : State :=
  match RecallMsg.parse f.payload with
  | some m => if s.working then matchRecall f.sender m s else s
  | none => s

/-- RECALL_FRAME (R164). -/
def execRecallFrame (s : State) : Host.Outcome State Fault Refusal := .next (takeHead .lineRecall handleRecall s)

def handleKill (f : Frame) (s : State) : State :=
  match RecallMsg.parse f.payload with
  | some m => if s.working then matchKill m s else s
  | none => s

/-- KILL_FRAME (R167). -/
def execKillFrame (s : State) : Host.Outcome State Fault Refusal := .next (takeHead .lineKill handleKill s)

/-! ### Unassigned classes (R101) -/

/-- UNASSIGNED_CLASS (R101): the frame is removed with no effect. -/
def execUnassignedClass (s : State) : Host.Outcome State Fault Refusal := .next (takeHead .unassigned (fun _ x => x) s)

end Sys2Proof.Machine
end

