-- ==== Sys2Proof/Machine/ShaperCommands.lean ====
section
/-! DEFINITION. The commands of the cutter, the shaper, the box builder and the transmit slots they wait for. -/

namespace Sys2Proof.Machine

/-- CUTTING_RESUMED (R36): stalled cutting goes on once a record is free. -/
def execCuttingResumed (s : State) : Host.Outcome State Fault Refusal :=
  .next (if s.working then finish (resumeCutting s) else s)

/-- SHAPING_START (R57). -/
def execShapingStart (s : State) : Host.Outcome State Fault Refusal :=
  .next (if s.canStartShaping then finish (startShaping s) else s)

/-- STORE_WAIT_GRANTED (R59). -/
def execStoreWaitGranted (s : State) : Host.Outcome State Fault Refusal :=
  .next (if s.working then finish (grantStore s) else s)

/-- SHAPING_COMPLETE (R70). -/
def execShapingComplete (s : State) : Host.Outcome State Fault Refusal :=
  .next (if s.working then finish (completeShaping s) else s)

/-- BOX_BUILD_START (R72). -/
def execBoxBuildStart (s : State) : Host.Outcome State Fault Refusal :=
  .next (if s.canStartBox then finish (startBox s) else s)

/-- BOX_BUILD_COMPLETE (R71). -/
def execBoxBuildComplete (s : State) : Host.Outcome State Fault Refusal :=
  .next (if s.working then finish (completeBox s) else s)

/-- PENDING_REMAINDER_RECORD (R74). -/
def execPendingRemainderRecord (s : State) : Host.Outcome State Fault Refusal :=
  .next (if s.working then finish (placeRemainder s) else s)

/-- WAITING_FRAME_ENTERS (R104). -/
def execWaitingFrameEnters (s : State) : Host.Outcome State Fault Refusal :=
  .next (if s.working then finish (settleSlots s) else s)

end Sys2Proof.Machine
end

