-- ==== Sys2Proof/Machine/Signals.lean ====
section
/-! DEFINITION. The commands of the pins and the cartridge: power, the reset line, cartridge-present and cartridge words. -/

namespace Sys2Proof.Machine

/-- POWER_ON (R176): RESET, with every block at its power-on values. -/
def execPowerOn (s : State) : Host.Outcome State Fault Refusal :=
  .next (blocksAtReset CartridgePort.initial s)

/-- RESET_LINE_ASSERTED (R176): RESET from any state; a cartridge read under way is left to complete. -/
def execResetLineAsserted (s : State) : Host.Outcome State Fault Refusal :=
  .next (blocksAtReset s.cartridge.atResetLine (s.withPins { s.pins with resetLine := true }))

/-- RESET_LINE_RELEASED (R175, R176): a station in RESET samples its straps and enters PROFILING. -/
def execResetLineReleased (straps : BitVec 3) (s : State) : Host.Outcome State Fault Refusal :=
  .next (
    if s.condition.state = .reset then
      enterProfiling ((s.withPins { s.pins with resetLine := false }).withPort { s.port with station := straps.toNat })
    else s)

/-- CARTRIDGE_PRESENT_FALL (R54). -/
def execCartridgePresentFall (s : State) : Host.Outcome State Fault Refusal :=
  .next (
    if s.pins.cartridgePresent then
      let s1 := s.withPins { s.pins with cartridgePresent := false }
      if s.condition.state = .reset then s1 else removeCartridge (abandonCartridgeWork s1)
    else s)

/-- CARTRIDGE_PRESENT_RISE (R54): no state changes but the pin's. -/
def execCartridgePresentRise (s : State) : Host.Outcome State Fault Refusal :=
  .next (s.withPins { s.pins with cartridgePresent := true })

/-- CARTRIDGE_READ_COMPLETE (R40): the word of the read outstanding arrives, and the next read starts. -/
def execCartridgeReadComplete (word : CartWord) (s : State) : Host.Outcome State Fault Refusal :=
  .next (
    match s.cartridge.outstanding with
    | some o => finish (receiveWord o word s)
    | none => s)

end Sys2Proof.Machine
end

