-- ==== Sys2Proof/Machine/TallyCommands.lean ====
section
/-! DEFINITION. The commands of the tally unit and the condition unit that no frame carries. The rules make each of them part
of the event that lets it happen, and the commands of those events do it there; these do whatever is still outstanding. -/

namespace Sys2Proof.Machine

/-- DEFERRED_DECISION (R117): a waiting decision is made once fewer than 2 lines are in hand. -/
def execDeferredDecision (s : State) : Host.Outcome State Fault Refusal :=
  .next (if s.working then finish (settleTally s) else s)

/-- DEFERRED_COPY_GAP (R18). -/
def execDeferredCopyGap (s : State) : Host.Outcome State Fault Refusal :=
  .next (if s.working then finish (checkGapMark s) else s)

/-- R162: the held traps of a line in hand whose own verdict has been carried are reported. -/
def reportLine (s : State) (r : LineRecord) : State := if r.ownVerdict then reportTraps r.number r.spans s else s

/-- R162: every trap that is due is reported, those of taken lines against the line most recently taken. -/
def reportDue (s : State) : State :=
  let s1 := s.tally.inHand.foldl reportLine s
  match s1.tally.taken with
  | some t => reportTraps t.number s1.window.behind s1
  | none => s1

/-- TRAP_REPORT (R162). -/
def execTrapReport (s : State) : Host.Outcome State Fault Refusal :=
  .next (if s.working then finish (reportDue s) else s)

/-- KILL_END (R169). -/
def execKillEnd (s : State) : Host.Outcome State Fault Refusal :=
  .next (if s.working then finish (settleTally (endKillIfDue s)) else s)

/-- R109: the open line is a paragraph's first line and opened after the MUSTER was dropped. -/
def State.musterDue (s : State) : Bool :=
  s.port.heldMuster.any (fun h => s.tally.openLine?.any (fun r => r.inherited.isNone && h.since != some r.number))

/-- HELD_MUSTER_REQUEUED (R109). -/
def execHeldMusterRequeued (s : State) : Host.Outcome State Fault Refusal :=
  .next (if s.working ∧ s.musterDue then finish (requeueHeldMuster s) else s)

/-- PENDING_ABORT_NOTICE (R160). -/
def execPendingAbortNotice (s : State) : Host.Outcome State Fault Refusal :=
  .next (if s.working then finish (releasePendingNotices s) else s)

end Sys2Proof.Machine
end

