-- ==== Sys2Proof/Machine/Timers.lean ====
section
/-! DEFINITION. The commands of the timers: the ends of the coverage timer's stages, the verdict-wait timer and the long-hold
timer. -/

namespace Sys2Proof.Machine

/-- R129: the fallback station builds a box for the open line's uncovered span. -/
def planBoxes (s : State) : State :=
  match s.tally.openLine? with
  | some r =>
    if s.splitter.fallback then s.withShaper { s.shaper with plan := s.shaper.plan ++ s.boxesDue r } else s
  | none => s

/-- COVERAGE_TIMER_FIRST_END (R128, R129). -/
def execCoverageTimerFirstEnd (s : State) : Host.Outcome State Fault Refusal :=
  .next (
    if s.working ∧ s.tally.coverage = .first then
      finish (planBoxes (s.withTally { s.tally with coverage := .second }))
    else s)

/-- R130: COVERAGE TIMEOUT against the open line, at its gap. -/
def raiseCoverageTimeout (s : State) : State :=
  match s.tally.openLine? with
  | some r => raise ⟨.coverageTimeout, r.scan.point, r.scan.point, none, some r.ref, none⟩ s
  | none => s

/-- COVERAGE_TIMER_SECOND_END (R128, R130). -/
def execCoverageTimerSecondEnd (s : State) : Host.Outcome State Fault Refusal :=
  .next (
    if s.working ∧ s.tally.coverage = .second then
      finish (raiseCoverageTimeout (s.withTally { s.tally with coverage := .expired }))
    else s)

/-- R135: the roster members that have not published a verdict for the line of record `r`. -/
def State.unanswered (s : State) (r : LineRecord) : List Nat :=
  s.tally.roster.filter (fun m => m != s.port.station && !r.answeredBy m)

/-- R135: the verdict-wait timer runs out on line `n`. -/
def expireVerdictWait (n : LineNumber) (s : State) : State :=
  let s1 := s.withTally { s.tally with verdictWait := s.tally.verdictWait.expire }
  match s.tally.line? n with
  | some r => (s.unanswered r).foldl (loseStation r) s1
  | none => s1

/-- VERDICT_WAIT_EXPIRY (R135). -/
def execVerdictWaitExpiry (s : State) : Host.Outcome State Fault Refusal :=
  .next (
    match s.tally.verdictWait.watched with
    | some n => if s.working then finish (expireVerdictWait n s) else s
    | none => s)

/-- R156: LONG HOLD, against the oldest line that is not SENT. While none is held, it waits for the line that the kill in progress
opens next: the trap's item is that line's start index (log entry 19). -/
def raiseLongHold (s : State) : State :=
  match s.tally.lines.find? (fun r => r.state != .sent) with
  | some r => raise (Cond.at .longHold r.start s.placement.holder) s
  | none =>
    if s.trapsHeld < reportLimit then
      s.withPlacement { s.placement with unreported := s.placement.unreported ++ [s.placement.holder] }
    else s

/-- LONG_HOLD_EXPIRY (R156). -/
def execLongHoldExpiry (s : State) : Host.Outcome State Fault Refusal :=
  .next (
    if s.working ∧ s.placement.longHold.running then
      finish (raiseLongHold (s.withPlacement { s.placement with longHold := ⟨false, true⟩ }))
    else s)

end Sys2Proof.Machine
end

