-- ==== Sys2Proof/Machine/Dispatch.lean ====
section
/-! DEFINITION. The meaning of every command of the station, one arm for each. -/

namespace Sys2Proof.Machine

def exec (i : Instr) (s : State) : Host.Outcome State Fault Refusal :=
  match i with
  | .powerOn => Sys2Proof.Machine.execPowerOn s
  | .resetLineAsserted => Sys2Proof.Machine.execResetLineAsserted s
  | .resetLineReleased straps => Sys2Proof.Machine.execResetLineReleased straps s
  | .cartridgePresentFall => Sys2Proof.Machine.execCartridgePresentFall s
  | .cartridgePresentRise => Sys2Proof.Machine.execCartridgePresentRise s
  | .cartridgeReadComplete word => Sys2Proof.Machine.execCartridgeReadComplete word s
  | .frameAttemptStart => Sys2Proof.Machine.execFrameAttemptStart s
  | .frameAttemptEnd outcome => Sys2Proof.Machine.execFrameAttemptEnd outcome s
  | .frameReceived word payload check spoiled => Sys2Proof.Machine.execFrameReceived word payload check spoiled s
  | .clearFrame => Sys2Proof.Machine.execClearFrame s
  | .copyFrame => Sys2Proof.Machine.execCopyFrame s
  | .cuttingResumed => Sys2Proof.Machine.execCuttingResumed s
  | .shapingStart => Sys2Proof.Machine.execShapingStart s
  | .storeWaitGranted => Sys2Proof.Machine.execStoreWaitGranted s
  | .shapingComplete => Sys2Proof.Machine.execShapingComplete s
  | .boxBuildStart => Sys2Proof.Machine.execBoxBuildStart s
  | .boxBuildComplete => Sys2Proof.Machine.execBoxBuildComplete s
  | .pendingRemainderRecord => Sys2Proof.Machine.execPendingRemainderRecord s
  | .waitingFrameEnters => Sys2Proof.Machine.execWaitingFrameEnters s
  | .measureFrame => Sys2Proof.Machine.execMeasureFrame s
  | .deferredDecision => Sys2Proof.Machine.execDeferredDecision s
  | .deferredCopyGap => Sys2Proof.Machine.execDeferredCopyGap s
  | .verdictFrame => Sys2Proof.Machine.execVerdictFrame s
  | .trapReport => Sys2Proof.Machine.execTrapReport s
  | .musterFrame => Sys2Proof.Machine.execMusterFrame s
  | .noticeFrame => Sys2Proof.Machine.execNoticeFrame s
  | .takenFrame => Sys2Proof.Machine.execTakenFrame s
  | .holdFrame => Sys2Proof.Machine.execHoldFrame s
  | .releaseFrame => Sys2Proof.Machine.execReleaseFrame s
  | .placeFrame => Sys2Proof.Machine.execPlaceFrame s
  | .recallFrame => Sys2Proof.Machine.execRecallFrame s
  | .killFrame => Sys2Proof.Machine.execKillFrame s
  | .killEnd => Sys2Proof.Machine.execKillEnd s
  | .heldMusterRequeued => Sys2Proof.Machine.execHeldMusterRequeued s
  | .pendingAbortNotice => Sys2Proof.Machine.execPendingAbortNotice s
  | .unassignedClass => Sys2Proof.Machine.execUnassignedClass s
  | .coverageTimerFirstEnd => Sys2Proof.Machine.execCoverageTimerFirstEnd s
  | .coverageTimerSecondEnd => Sys2Proof.Machine.execCoverageTimerSecondEnd s
  | .verdictWaitExpiry => Sys2Proof.Machine.execVerdictWaitExpiry s
  | .longHoldExpiry => Sys2Proof.Machine.execLongHoldExpiry s

end Sys2Proof.Machine
end

