-- ==== Sys2Proof/Safety.lean ====
section
/-! DEFINITION. What a state must satisfy to count as safe, and the conditions on states that statements use. -/

namespace Sys2Proof.Machine

/-! ### Bounds the manual gives (R97, R103, R102) -/

/-- The bus port's queues: 24 ordinary and 2 urgent slots, lowest word first, 16 received frames, one frame in flight, CLEAR
pending says whether a CLEAR waits, and a station that is withdrawing holds no frame while none does. -/
structure State.BusSound (s : State) : Prop where
  ordinary : s.port.ordinaryUsed ≤ ordinarySlots
  urgent   : s.port.urgentUsed ≤ urgentSlots
  order    : s.port.tx.Pairwise (fun a b => a.frame.word.toNat ≤ b.frame.word.toNat)
  receive  : s.port.rx.length ≤ receiveSlots
  flight   : s.port.tx.countP (fun t => t.inFlight) ≤ 1
  clear    : s.port.clearPending = s.port.rx.any Frame.isClear
  leaving  : s.withdrawing = true → s.port.clearPending = false → s.port.rx = []

/-- R12, R16: the window holds at most 2048 items, and a working station's can take every COPY frame received. -/
structure State.CopySound (s : State) : Prop where
  size    : s.window.count ≤ windowSize
  reserve : s.working = true → s.copyReserve ≤ s.window.free

/-- R114, R134: the roster has no duplicates, in rising order, and no sender above 7. -/
def State.RosterSound (s : State) : Prop := s.tally.roster.Pairwise (· < ·) ∧ ∀ m ∈ s.tally.roster, m < 8

/-- R22, R25, R26: levels run from 0 to 15, the base levels are 0 or 1, the embedding stack has at most 15 entries and the
overflow count stays at 255. -/
structure State.SplitterSound (s : State) : Prop where
  level    : s.splitter.level ≤ 15
  base     : s.splitter.baseInForce ≤ 1 ∧ s.splitter.paraBase ≤ 1
  stack    : s.splitter.stack.length ≤ 15 ∧ ∀ e ∈ s.splitter.stack, e.level ≤ 15
  overflow : s.splitter.overflow ≤ 255

/-- R158: the report list holds at most 32 traps, the pending abort notices are at most 4. -/
def State.ListsSound (s : State) : Prop :=
  s.condition.reports.length ≤ reportLimit ∧ s.condition.notices.length ≤ pendingNoticeLimit

/-- R35, R72: at most 96 own segment records and 96 box segment records. -/
def State.RecordsSound (s : State) : Prop :=
  s.shaper.records.length ≤ recordLimit ∧ s.shaper.boxes.length ≤ recordLimit

/-- The segment items of a tally, in order. -/
def segmentsOf (items : List TallyItem) : List SegItem :=
  items.filterMap (fun x => match x with | .segment g => some g | .space _ _ _ _ _ | .thin _ _ _ => none)

/-- R114, R117, R118, R168: an open line is the last record and the only open one, and none is open while a kill waits; at most 2
lines are in hand, no tally holds more than 48 items, and the segments of an open line are whole and do not overlap. -/
structure State.LinesSound (s : State) : Prop where
  opened : s.tally.lines.Pairwise (fun a _ => a.state ≠ .opened)
  inHand : s.tally.inHand.length ≤ 2
  kill   : s.condition.kill.isSome = true → s.tally.openLine? = none
  items  : ∀ r ∈ s.tally.lines, r.tally.length ≤ tallyLimit
  whole  : ∀ r ∈ s.tally.lines, r.state = .opened →
    (segmentsOf r.tally).Pairwise (fun g h => rangesOverlap g.start g.count h.start h.count = false) ∧
      ∀ g ∈ segmentsOf r.tally, g.cut = none

/-! ### Nothing outstanding -/

/-- No record and no box segment waits for glyph store room. -/
def State.noStoreWait (s : State) : Bool :=
  s.shaper.records.all (fun r => r.state != .storeWait) && s.shaper.boxes.all (fun b => b.state != .storeWait)

/-- Nothing but the operations has anything to go on with: no pending remainder, no frame or read waiting, no PLACE frame to
build, no item to cut. -/
def State.nothingWaits (s : State) : Bool :=
  s.shaper.remainder.isNone && s.port.waiting.isEmpty && s.cartridge.waiting.isEmpty && s.placement.nextLine?.isNone &&
    (!s.splitter.cutting || (!s.window.holds s.splitter.cutPoint && !s.window.behind s.splitter.cutPoint))

/-- No event has anything left to set going: nothing waits, for store room or otherwise, no operation is in flight, and no LONG
HOLD waits for the line a kill has yet to open. -/
def State.quiet (s : State) : Bool :=
  s.nothingWaits && s.noStoreWait && s.shaper.op.isNone && s.shaper.boxOp.isNone && s.placement.unreported.isEmpty

/-- The port takes a frame of this producer and class at once, in the slot `urgent` or an ordinary one. -/
def State.hasRoom (s : State) (who : Producer) (c : FrameClass) (urgent : Bool) : Bool :=
  s.accepts && !s.port.stalled who && s.port.slotFor c == some urgent

/-- The state once the shaping of record `r` has been granted and its first word, at address `a`, asked for (R40, R57, R58). -/
def State.shapingBegun (s : State) (r : SegRecord) (a : Nat) : State :=
  (s.withShaper { s.shaper.mapRecord r.start (fun x => { x with state := .shaping }) with
    op := some ⟨r.start, r.charCount, []⟩ }).withCartridge (s.cartridge.request .shaper a).startNext

/-- R148, R155: the PLACE frames of one whole round of a line, from entry 0 on. -/
def State.roundFrames (s : State) (p : PlaceState) : List Frame :=
  (List.range ((p.entryCount + 5) / 6)).map (fun k => s.placeFrame { p with nextEntry := 6 * k })

/-- The frame at the head of the receive queue, with the rest of the queue. -/
def State.head? (s : State) : Option (Frame × List Frame) :=
  match s.port.rx with
  | f :: rest => some (f, rest)
  | [] => none

/-- The state with the head of the receive queue removed. -/
def State.popped (s : State) : State := s.withPort { s.port with rx := s.port.rx.tail }

end Sys2Proof.Machine
end

