-- ==== Sys2Proof/Certificates/Slice0/Obligations.lean ====
section
/-! DEFINITION. What is claimed of the model: each statement formalises the rules of spec/ its docstring names. -/

open Sys2Proof Sys2Proof.Machine

/-! ### Steps, start-up and what the profile gives -/

/-- A step runs the command at the front of the queue with the queue's rest; an empty queue leaves the state, which is the
model's choice (log entry 3). -/
def Obligations.StepRunsFrontCommand : Prop :=
  (∀ (c : Instr) (rest : List Instr) (s : State), step (s.withPending (c :: rest)) = exec c (s.withPending rest)) ∧
    ∀ s : State, s.pending = [] → step s = .next s

/-- Every well-formed command completes and leaves the commands waiting as they are, one that no rule enables too, which is
the model's choice (log entry 2). A FRAME_RECEIVED longer than the six-bit length field can say (R185) is refused, which is
the model's choice too (log entry 13). -/
def Obligations.WellFormedCommandsComplete : Prop :=
  ∀ (c : Instr) (s : State),
    (c.wellFormed = true → ∃ t, exec c s = .next t ∧ t.pending = s.pending) ∧
      (c.wellFormed = false → exec c s = .refused .payloadTooLong)

/-- R176: power-on and the reset line put every block at its power-on values (R1, R11, R12, R22, R39, R56, R58, R80, R97, R114,
R138, R158); the reset line leaves a cartridge read outstanding, its word to be discarded. The pins, the model's counter and
the commands waiting stay. These are the model's choice (log entry 1), and so are the values before straps and profile are
read: station number 0, the fallback flag clear, space units and elongation multiple 0, and the hold response AT FRAME. -/
def Obligations.PowerAndResetLine : Prop :=
  ∀ s : State,
    exec .powerOn s = .next { State.reset with pins := s.pins, choices := s.choices, pending := s.pending } ∧
    exec .resetLineAsserted s = .next { State.reset with
      pins := ⟨true, s.pins.cartridgePresent⟩
      cartridge := { CartridgePort.initial with
        outstanding := s.cartridge.outstanding.map (fun o => ⟨o.who, o.addr, true⟩) }
      choices := s.choices
      pending := s.pending } ∧
    State.reset.condition = ⟨.reset, none, none, [], []⟩ ∧
    State.reset.decoder = ⟨0, none, none, none, []⟩ ∧
    State.reset.window = ⟨0, [], ⟨1200, 120, .justify, .flushStart, .spaces, 0⟩⟩ ∧
    State.reset.splitter = ⟨[], false, 0, true, 0, 0, [], 0, 40, 40, none, 0, false⟩ ∧
    State.reset.cartridge.usable = List.replicate 16 true ∧
    State.reset.shaper = ⟨[], none, none, [], [], none⟩ ∧ State.reset.shaper.free = 768 ∧
    State.reset.measure.segment = none ∧ State.reset.port.levels = none ∧
    State.reset.tally = ⟨[], none, [], .idle, ⟨none, none⟩, none⟩ ∧
    State.reset.placement.held = false ∧ State.reset.readyLamp = false

/-- R175, R176, R177: released from RESET the station samples its straps; it enters PROFILING and asks for word 0 when a
cartridge is present, and REFUSED otherwise. That in every other state the release changes nothing is the model's choice (log
entry 2). -/
def Obligations.ResetLineReleased : Prop :=
  ∀ (straps : BitVec 3) (s : State),
    (s.condition.state = .reset → ∃ t, exec (.resetLineReleased straps) s = .next t ∧
      t.port.station = straps.toNat ∧ t.pins = ⟨false, s.pins.cartridgePresent⟩ ∧
      (s.pins.cartridgePresent = false → t.condition.state = .refused) ∧
      (s.pins.cartridgePresent = true → t.condition.state = .profiling ∧ t.cartridge.profileWords = some [] ∧
        (s.cartridge.outstanding = none → s.cartridge.waiting = [] →
          t.cartridge.outstanding = some ⟨.profile, 0, false⟩))) ∧
    (s.condition.state ≠ .reset → exec (.resetLineReleased straps) s = .next s)

/-- R177 to R179: the 96th word of the profile read ends PROFILING: in LISTENING with every block handed its part when the
profile passes, in REFUSED otherwise. An earlier word is kept and the next one asked for. A profile fails on the checks of
R178 alone. R40, R52: a word read for the shaping operation or the box build goes to it, and the next address it needs is
asked for (which addresses those are is the model's choice, log entry 7); an address violation makes the slot unusable, raises
CARTRIDGE ADDRESS and restarts the shaping operation from its first character, and withdraws a station whose box build meets
it; the word of an abandoned read is discarded. -/
def Obligations.CartridgeReads : Prop :=
  (∀ p : Profile, p.passes = false ↔ p.version ≠ 3 ∨ p.size = 0 ∨ 8 < p.count ∨ (p.count = 0 ∧ p.fallback = false) ∨
    (∃ c ∈ p.claims, c.2.1 < c.1 ∨ 1048575 < c.1 ∨ 1048575 < c.2.1 ∨ 3 < c.2.2.1) ∨ 1023 < p.natural ∨
    1023 < p.minimum ∨ 1023 < p.maximum ∨ p.natural < p.minimum ∨ p.maximum < p.natural ∨ p.maximum = 0) ∧
  (∀ (w : CartWord) (ws : List CartWord) (a : Nat) (s : State),
    s.condition.state = .profiling → s.cartridge.outstanding = some ⟨.profile, a, false⟩ →
    s.cartridge.profileWords = some ws → s.cartridge.waiting = [] →
    (ws.length = 95 → ∃ t, exec (.cartridgeReadComplete w) s = .next t ∧ t.cartridge.outstanding = none ∧
      ((Profile.ofWords (ws ++ [w])).passes = false → t.condition.state = .refused ∧
        t.splitter = s.splitter ∧ t.port = s.port ∧ t.measure = s.measure ∧ t.placement = s.placement) ∧
      ((Profile.ofWords (ws ++ [w])).passes = true → t.condition.state = .listening ∧
        t.splitter.claims = (Profile.ofWords (ws ++ [w])).claims.map claimOf ∧
        t.splitter.fallback = (Profile.ofWords (ws ++ [w])).fallback ∧
        t.cartridge.profileCopy = (ws ++ [w]).take 64 ∧
        t.cartridge.directory = (Profile.ofWords (ws ++ [w])).directory ∧
        t.cartridge.size = min 2097152 (Profile.ofWords (ws ++ [w])).size ∧
        t.measure.natural = (Profile.ofWords (ws ++ [w])).natural ∧
        t.measure.minimum = (Profile.ofWords (ws ++ [w])).minimum ∧
        t.measure.maximum = (Profile.ofWords (ws ++ [w])).maximum ∧
        t.measure.multiple = min 3 (Profile.ofWords (ws ++ [w])).multiple ∧
        t.port.levels = some (Profile.ofWords (ws ++ [w])).levels ∧
        t.placement.response = (Profile.ofWords (ws ++ [w])).response)) ∧
    (ws.length < 95 → ∃ t, exec (.cartridgeReadComplete w) s = .next t ∧ t.condition.state = .profiling ∧
      t.cartridge.profileWords = some (ws ++ [w]) ∧
      t.cartridge.outstanding = some ⟨.profile, ws.length + 1, false⟩)) ∧
  (∀ (w : CartWord) (a b : Nat) (op : Operation) (r : SegRecord) (st : ReadState) (s : State),
    s.working = true → s.nothingWaits = true → s.noStoreWait = true → s.shaper.boxOp = none →
    s.cartridge.outstanding = some ⟨.shaper, a, false⟩ → s.shaper.op = some op → s.shaper.record? op.start = some r →
    (runReader (shapeSegment s.readEnv (s.shapeInput r)) (op.words ++ [w]) = (.error (.need b), st) → st.shaped = none →
      exec (.cartridgeReadComplete w) s =
        .next ((s.withShaper { s.shaper with op := some { op with words := op.words ++ [w] } }).withCartridge
          { s.cartridge with outstanding := some ⟨.shaper, b, false⟩ })) ∧
    (∀ (slot : Nat) (item : CopyIndex) (n : LineNumber) (i : CopyIndex) (st' : ReadState),
      runReader (shapeSegment s.readEnv (s.shapeInput r)) (op.words ++ [w]) = (.error (.violation slot item), st) →
      runReader (shapeSegment { s.readEnv with usable := s.cartridge.usable.set slot false } (s.shapeInput r)) [] =
        (.error (.need b), st') → st'.shaped = none →
      s.condition.killPeriod = none → lineConcerned s op.start = some ⟨n, 0, some i⟩ →
      s.hasRoom .notice .notice false = true →
      ∃ t, exec (.cartridgeReadComplete w) s = .next t ∧ t.cartridge.usable = s.cartridge.usable.set slot false ∧
        t.cartridge.outstanding = some ⟨.shaper, b, false⟩ ∧ t.shaper = { s.shaper with op := some { op with words := [] } } ∧
        t.port.tx = txInsert ⟨s.port.frame .notice (Notice.encode ⟨.cartridgeAddress, n, item, op.start, none, 0⟩),
          false, 0, false, false, false⟩ s.port.tx)) ∧
  (∀ (w : CartWord) (a : Nat) (op : Operation) (b : BoxRecord) (st : ReadState) (s : State),
    s.working = true → s.nothingWaits = true → s.noStoreWait = true → s.shaper.op = none →
    s.cartridge.outstanding = some ⟨.box, a, false⟩ → s.shaper.boxOp = some op → s.shaper.building? op.start = some b →
    (∀ c, runReader (shapeBox s.readEnv b.start (s.window.chars b.start b.itemCount)) (op.words ++ [w]) =
        (.error (.need c), st) → st.shaped = none →
      exec (.cartridgeReadComplete w) s =
        .next ((s.withShaper { s.shaper with boxOp := some { op with words := op.words ++ [w] } }).withCartridge
          { s.cartridge with outstanding := some ⟨.box, c, false⟩ })) ∧
    (∀ slot item, runReader (shapeBox s.readEnv b.start (s.window.chars b.start b.itemCount)) (op.words ++ [w]) =
        (.error (.violation slot item), st) →
      ∃ t, exec (.cartridgeReadComplete w) s = .next t ∧ t.cartridge.usable = s.cartridge.usable.set slot false ∧
        t.port.withdrawalPending = true ∧ t.shaper.boxOp = none)) ∧
  ∀ (w : CartWord) (who : Requester) (a : Nat) (s : State), s.quiet = true →
    s.cartridge.outstanding = some ⟨who, a, true⟩ →
    exec (.cartridgeReadComplete w) s = .next (s.withCartridge { s.cartridge with outstanding := none })

/-- R54: what the fall of cartridge-present does in each state, and that its rise changes the pin alone. -/
def Obligations.CartridgePresent : Prop :=
  ∀ s : State,
    exec .cartridgePresentRise s = .next (s.withPins ⟨s.pins.resetLine, true⟩) ∧
    (s.pins.cartridgePresent = true → ∃ t, exec .cartridgePresentFall s = .next t ∧ t.pins.cartridgePresent = false ∧
      (s.condition.state = .reset → t = s.withPins ⟨s.pins.resetLine, false⟩) ∧
      (s.condition.state ≠ .reset → t.shaper.op = none ∧ t.shaper.boxOp = none ∧ t.cartridge.waiting = []) ∧
      (s.condition.state = .profiling → t.condition.state = .refused) ∧
      (s.condition.state = .listening → t.condition.state = .withdrawn ∧ t.port.tx = []) ∧
      (s.working = true → t.condition.state = .active ∧ t.port.withdrawalPending = true ∧ t.readyLamp = false) ∧
      (s.condition.state = .withdrawn ∨ s.condition.state = .refused → t.condition.state = s.condition.state))

/-- R175: a station in REFUSED leaves it at power-on and at the reset line alone. -/
def Obligations.RefusedLeftOnlyAtReset : Prop :=
  ∀ (c : Instr) (s t : State), s.condition.state = .refused → c ≠ .powerOn → c ≠ .resetLineAsserted →
    exec c s = .next t → t.condition.state = .refused

/-- R39, R97, R176, R179: the station number and what the profile gave are written at power-on, at the reset line and its
release, and at the end of the profile read, and by no other command. -/
def Obligations.ProfileValuesKept : Prop :=
  ∀ (c : Instr) (s t : State), c ≠ .powerOn → c ≠ .resetLineAsserted → (∀ x, c ≠ .resetLineReleased x) →
    (∀ w, c ≠ .cartridgeReadComplete w) → exec c s = .next t →
    t.port.station = s.port.station ∧ t.port.levels = s.port.levels ∧
      t.cartridge.profileCopy = s.cartridge.profileCopy ∧ t.cartridge.directory = s.cartridge.directory ∧
      t.cartridge.size = s.cartridge.size ∧ t.splitter.claims = s.splitter.claims ∧
      t.splitter.fallback = s.splitter.fallback ∧ t.measure.natural = s.measure.natural ∧
      t.measure.minimum = s.measure.minimum ∧ t.measure.maximum = s.measure.maximum ∧
      t.measure.multiple = s.measure.multiple ∧ t.placement.response = s.placement.response

/-! ### Copy, window and splitter -/

/-- R3, R13, R14: only copy, CLEAR, power-on and the reset line change the copy decoder; the copy window, with its items, its
base record and its indices, is changed besides by a joining VERDICT, TAKEN, RECALL, KILL and the end of a kill alone. The
next copy index, which R1 gives the decoder, is here the window's next index (the model's choice, log entry 6). -/
def Obligations.CopyKept : Prop :=
  ∀ (c : Instr) (s t : State), c ≠ .powerOn → c ≠ .resetLineAsserted → c ≠ .copyFrame → c ≠ .clearFrame →
    exec c s = .next t → t.decoder = s.decoder ∧
      (c ≠ .verdictFrame → c ≠ .takenFrame → c ≠ .recallFrame → c ≠ .killFrame → c ≠ .killEnd → t.window = s.window)

/-- R4, R10, R13, R17, R21, R23: a COPY frame in sequence whose one copy byte is a character of the page completes one item,
which joins the window at the next index with its owner and the parameters in force; its gap marks are those the decoder
holds for the next item. -/
def Obligations.CopyCharacterJoins : Prop :=
  ∀ (s : State) (f : Frame) (rest : List Frame) (q1 q0 b : Byte),
    s.takes = true → s.port.rx = f :: rest → f.cls = .copy → f.payload = [q1, q0, b] →
    s.decoder.inSequence (wordField f.payload 0) = true → s.decoder.lead = none →
    0x20 ≤ b.toNat → b.toNat ≤ 0xEF → s.window.count < windowSize → s.condition.kill = none →
    ∃ t, exec .copyFrame s = .next t ∧
      t.window = s.window.add ⟨.character (s.decoder.pageBase * 256 + b.toNat),
        some (s.splitter.ownerOf (s.decoder.pageBase * 256 + b.toNat)),
        some ⟨s.splitter.closeStart.levelOf (s.splitter.ownerOf (s.decoder.pageBase * 256 + b.toNat)), s.splitter.size,
          s.splitter.setSize, s.splitter.slot⟩, false, s.decoder.markNext⟩ ∧
      t.decoder = { s.decoder with lastSeq := some (wordField f.payload 0), operand := none, markNext := [] }

/-- R2, R17: a COPY frame of two bytes or more leaves its sequence number in the decoder, in sequence or not; a shorter
one is removed with no effect on the decoder or the window. -/
def Obligations.CopySequenceTaken : Prop :=
  ∀ (s : State) (f : Frame) (rest : List Frame), s.takes = true → s.port.rx = f :: rest → f.cls = .copy →
    ∃ t, exec .copyFrame s = .next t ∧
      (2 ≤ f.payload.length → t.decoder.lastSeq = some (wordField f.payload 0)) ∧
      (f.payload.length < 2 → t.decoder = s.decoder ∧ t.window = s.window)

/-- R17, R19: a copy gap at a LISTENING station empties the window, keeps its next index and drops the pending lead. -/
def Obligations.ListeningGap : Prop :=
  ∀ (s : State) (f : Frame) (rest : List Frame) (q1 q0 : Byte),
    s.condition.state = .listening → s.port.rx = f :: rest → f.cls = .copy → f.payload = [q1, q0] →
    s.decoder.inSequence (wordField f.payload 0) = false →
    ∃ t, exec .copyFrame s = .next t ∧ t.window.items = [] ∧ t.window.next = s.window.next ∧
      t.decoder = { s.decoder with lastSeq := some (wordField f.payload 0), lead := none, operand := none } ∧
      t.splitter = s.splitter ∧ t.condition = s.condition

/-- R9: a FILL or an unassigned byte 11h to 1Fh that arrives as a lead byte changes no state. -/
def Obligations.FillIsIgnored : Prop :=
  ∀ (s : State) (sender : Nat) (b : Byte) (rest : List Byte), s.decodes = true → s.decoder.lead = none →
    s.decoder.operand = none → (b.toNat = 0 ∨ (0x11 ≤ b.toNat ∧ b.toNat ≤ 0x1F)) →
    decodeBytes sender (b :: rest) s = decodeBytes sender rest s

/-- R26, R28: a push asks for the least level of its parity above the current one and is taken when that level is at most 15
and the stack has room; it saves the page base. A POP first undoes a refused push, then the top entry, whose page base and
the level below it come back, and else does nothing but end a pending paragraph start and a segment. A POP that follows a
push taken gives back what stood before it. -/
def Obligations.EmbeddingStack : Prop :=
  (∀ (kind : PushKind) (c : Nat), c < askedLevel kind c ∧ askedLevel kind c % 2 = (if kind = .rtl then 1 else 0) ∧
    ∀ l, c < l → l % 2 = (if kind = .rtl then 1 else 0) → askedLevel kind c ≤ l) ∧
  ∀ (p : Splitter) (kind : PushKind) (page page' : Nat),
    (p.takesPush kind = true ↔ askedLevel kind p.level ≤ 15 ∧ p.stack.length < 15) ∧
    (p.takesPush kind = true → p.push kind page =
      { p with stack := ⟨askedLevel kind p.level, kind, page⟩ :: p.stack, level := askedLevel kind p.level }) ∧
    (0 < p.overflow → p.pop page = ({ p with overflow := p.overflow - 1 }, page)) ∧
    (∀ top rest, p.overflow = 0 → p.stack = top :: rest →
      p.pop page = ({ p with stack := rest, level := (rest.head?.map StackEntry.level).getD p.paraBase }, top.page)) ∧
    (p.overflow = 0 → p.stack = [] → p.pop page = (p, page)) ∧
    (p.stamp page .pop).splitter = (p.closeStart.pop page).1 ∧ (p.stamp page .pop).page = (p.closeStart.pop page).2 ∧
    (p.stamp page .pop).refused = false ∧
    (⟨.pop, none, none, false, []⟩ : Item).cutEffect = .ends ∧
    (p.takesPush kind = true → p.overflow = 0 → p.level = (p.stack.head?.map StackEntry.level).getD p.paraBase →
      (p.push kind page).pop page' = (p, page))

/-! ### Cutter, shaper, box builder and cartridge port -/

/-- R35, R36: stalled cutting goes on at the character that needs a record once one is free: a record opens there and the
cut point moves on. -/
def Obligations.CuttingResumes : Prop :=
  ∀ (s : State) (it : Item) (k lvl : Nat), s.working = true → s.splitter.cutting = true →
    s.window.item? s.splitter.cutPoint = some it → it.killed = false → it.cutEffect = .own k lvl →
    s.shaper.cutting? = none → s.shaper.recordFree = true →
    (s.withSplitter { s.splitter with cutPoint := s.splitter.cutPoint + 1 }).quiet = true →
    exec .cuttingResumed s = .next ((s.withSplitter { s.splitter with cutPoint := s.splitter.cutPoint + 1 }).withShaper
      { s.shaper with
        records := insertRecord (SegRecord.opening s.splitter.cutPoint k lvl (s.splitter.classOf k)) s.shaper.records })

/-- R57, R58: the shaper takes the first WAITING record; with room in the store the record enters SHAPING, its characters
are reserved and its first word is asked for. Without room it enters STORE WAIT. -/
def Obligations.ShapingStarts : Prop :=
  ∀ (s : State) (r : SegRecord), s.canStartShaping = true → s.quiet = true →
    s.shaper.records.find? (fun x => x.state == .waiting) = some r → s.shaper.record? r.start = some r →
    (∀ (a : Nat) (st : ReadState), r.charCount ≤ s.shaper.free →
      runReader (shapeSegment s.readEnv (s.shapeInput r)) [] = (.error (.need a), st) → st.shaped = none →
      exec .shapingStart s = .next (s.shapingBegun r a)) ∧
    (s.shaper.free < r.charCount → s.unfreeable + r.charCount ≤ storeSize →
      exec .shapingStart s =
        .next (s.withShaper (s.shaper.mapRecord r.start (fun x => { x with state := .storeWait }))))

/-- R59: a record in STORE WAIT whose reservation the free count covers is granted and enters SHAPING. -/
def Obligations.StoreWaitGranted : Prop :=
  ∀ (s : State) (r : SegRecord) (a : Nat) (st : ReadState), s.working = true → s.nothingWaits = true →
    s.shaper.op = none → s.shaper.boxOp = none → s.shaper.boxes.all (fun b => b.state != .storeWait) = true →
    s.shaper.records.filter (fun x => x.state == .storeWait) = [r] → s.shaper.record? r.start = some r →
    r.charCount ≤ s.shaper.free →
    runReader (shapeSegment s.readEnv (s.shapeInput r)) [] = (.error (.need a), st) → st.shaped = none →
    exec .storeWaitGranted s = .next (s.shapingBegun r a)

/-- R61, R70: an operation whose glyph records are made and measured leaves its record READY with its width and glyph
records, and hands its MEASURE frame over. -/
def Obligations.ShapingCompletes : Prop :=
  ∀ (s : State) (op : Operation) (r : SegRecord) (res : ShapeResult) (st : ReadState), s.working = true →
    s.shapingProgress = some (op, r, .ok res, st) → s.measure.segment = some op.start → s.nothingWaits = true →
    s.noStoreWait = true → s.shaper.boxOp = none → (r.missesReported = true ∨ res.misses = []) →
    s.hasRoom .shaper .measure false = true →
    ∃ t d, exec .shapingComplete s = .next t ∧ t.shaper.op = none ∧ t.measure.segment = none ∧
      t.shaper.record? op.start = some d ∧ d.state = .ready ∧ d.glyphs = res.glyphs ∧
      d.width = roundHalfUp s.measure.numerator ∧ d.measureQueued = true ∧ d.missesReported = true ∧
      t.port.tx = txInsert ⟨d.measureFrame s.port, false, 0, false, false, false⟩ s.port.tx

/-- R71, R72: the box builder takes the next box segment of the span; with room in the store it starts building. -/
def Obligations.BoxBuildStarts : Prop :=
  ∀ (s : State) (p : BoxPlan) (rest : List BoxPlan) (a : Nat) (st : ReadState), s.canStartBox = true → s.quiet = true →
    s.shaper.plan = p :: rest → s.shaper.box? p.start = none → p.charCount ≤ s.shaper.free →
    runReader (shapeBox s.readEnv p.start (s.window.chars p.start p.itemCount)) [] = (.error (.need a), st) →
    st.shaped = none →
    ∃ t b, exec .boxBuildStart s = .next t ∧ t.shaper.plan = rest ∧ t.shaper.box? p.start = some b ∧
      b.state = .building ∧ b.charCount = p.charCount ∧ b.itemCount = p.itemCount ∧
      t.shaper.boxOp = some ⟨p.start, p.charCount, []⟩ ∧ t.cartridge = (s.cartridge.request .box a).startNext ∧
      t.shaper.records = s.shaper.records ∧ t.port = s.port

/-- R71, R72: a box build whose records are made and measured leaves its box segment READY and hands its MEASURE over. -/
def Obligations.BoxBuildCompletes : Prop :=
  ∀ (s : State) (op : Operation) (b : BoxRecord) (res : ShapeResult) (st : ReadState), s.working = true →
    s.boxProgress = some (op, b, .ok res, st) → s.measure.segment = some op.start → s.nothingWaits = true →
    s.noStoreWait = true → s.shaper.op = none → s.hasRoom .boxBuilder .measure false = true →
    ∃ t d, exec .boxBuildComplete s = .next t ∧ t.shaper.boxOp = none ∧ t.measure.segment = none ∧
      t.shaper.box? op.start = some d ∧ d.state = .ready ∧ d.glyphs = res.glyphs ∧
      d.width = roundHalfUp s.measure.numerator ∧ d.measureQueued = true ∧
      t.port.tx = txInsert ⟨d.measureFrame s.port, false, 0, false, false, false⟩ s.port.tx

/-- R74: the pending remainder takes a free record, in its place in copy order. -/
def Obligations.RemainderTakesRecord : Prop :=
  ∀ (s : State) (r : SegRecord), s.working = true → s.shaper.remainder = some r → r.state = .waiting →
    s.shaper.records.length < recordLimit → (s.withShaper { s.shaper with remainder := none }).quiet = true →
    exec .pendingRemainderRecord s = .next (s.withShaper { s.shaper with
      remainder := none, records := insertRecord r s.shaper.records })

/-! ### Measure arithmetic -/

/-- R87: shares carried by the remainder: receiver `j` gets one step beyond the base share exactly when the accumulator, which
then stands at `j` times the remainder modulo `n`, reaches `n`; the shares sum to the amount, and as many receivers get the
extra step as the division leaves over. -/
def Obligations.SharesCarryRemainder : Prop :=
  ∀ a n : Nat, 0 < n → (spreadShares a n).length = n ∧
    (∀ j, j < n → (spreadShares a n)[j]? = some (a / n + if n ≤ j * (a % n) % n + a % n then 1 else 0)) ∧
    (spreadShares a n).sum = a ∧ (spreadShares a n).countP (fun x => x == a / n + 1) = a % n

/-- R90: a JUSTIFY line with a space and a slack of 0 or more is set to its measure exactly, with no offset or overhang. -/
def Obligations.JustifyFillsMeasure : Prop :=
  ∀ (c : Nat) (p : LineParams) (items : List TallyItem), naturalWidth items ≤ p.measure → 0 < spaceCount items →
    (justifySetting c p items).setWidth = p.measure ∧ (justifySetting c p items).widths.sum = p.measure ∧
      (justifySetting c p items).mode = .justify ∧ (justifySetting c p items).offset = 0 ∧
      (justifySetting c p items).overhang = 0

/-- R92, R93, R140: in a line shrunk below its natural width no space gives more than its shrink capacity, and nothing else
gives any; the whole need is given when the capacities cover it, every space is at its minimum when they do not, and the
overhang is what is left over. Visual order rearranges a line's items and loses none; a line with no odd level stands in
logical order, and a line of one odd level alone stands reversed. -/
def Obligations.ShrinkAndVisualOrder : Prop :=
  (∀ (p : LineParams) (quad : QuadMode) (items : List TallyItem), p.measure < naturalWidth items →
    (shrunkSetting p quad items).widths.length = items.length ∧
    (∀ (i : Nat) (x : TallyItem) (w : Nat), items[i]? = some x → (shrunkSetting p quad items).widths[i]? = some w →
      w ≤ x.natural ∧ x.natural - w ≤ x.shrink ∧
        ((items.map TallyItem.shrink).sum ≤ naturalWidth items - p.measure → w = x.natural - x.shrink)) ∧
    (naturalWidth items - p.measure ≤ (items.map TallyItem.shrink).sum →
      (shrunkSetting p quad items).setWidth = p.measure ∧ (shrunkSetting p quad items).overhang = 0) ∧
    ((items.map TallyItem.shrink).sum ≤ naturalWidth items - p.measure →
      (shrunkSetting p quad items).setWidth = naturalWidth items - (items.map TallyItem.shrink).sum ∧
      (shrunkSetting p quad items).overhang = naturalWidth items - (items.map TallyItem.shrink).sum - p.measure)) ∧
  ∀ items : List VisualItem,
    (visualOrder (fun v => v.item.level) items).Perm items ∧
    ((∀ v ∈ items, v.item.level % 2 = 0) → visualOrder (fun v => v.item.level) items = items) ∧
    (∀ k, k % 2 = 1 → (∀ v ∈ items, v.item.level = k) → visualOrder (fun v => v.item.level) items = items.reverse)

/-! ### Bus port -/

/-- R105: the first frame whose held-back mark is clear becomes the frame in flight; a station that may not offer does
nothing. -/
def Obligations.AttemptStarts : Prop :=
  ∀ (s : State) (held rest : List TxFrame) (t : TxFrame),
    (s.offers = true → s.port.tx = held ++ t :: rest → held.all (fun x => x.heldBack) = true → t.heldBack = false →
      exec .frameAttemptStart s =
        .next (s.withPort { s.port with tx := held ++ { t with inFlight := true } :: rest })) ∧
    (s.offers = true → s.port.tx.all (fun x => x.heldBack) = true → exec .frameAttemptStart s = .next s) ∧
    (s.offers = false → exec .frameAttemptStart s = .next s)

/-- R98, R106: a lost or broken attempt leaves the frame in its place with its attempt count; a spoil counts once, up to
the seventh; a carried frame leaves the queue and joins the station's own receive queue. -/
def Obligations.AttemptEnds : Prop :=
  ∀ (s : State) (before after : List TxFrame) (t : TxFrame), s.working = true → s.port.clearPending = false →
    s.port.tx = before ++ t :: after → t.inFlight = true → t.removed = false → s.quiet = true →
    before.all (fun x => !x.inFlight) = true → after.all (fun x => !x.inFlight) = true →
    (∀ o, o = .lost ∨ o = .broken → exec (.frameAttemptEnd o) s =
      .next (s.withPort { s.port with tx := before ++ { t with inFlight := false } :: after })) ∧
    (t.attempts + 1 < 8 → exec (.frameAttemptEnd (.whole true)) s = .next (s.withPort { s.port with
      tx := before ++ { t with inFlight := false, attempts := t.attempts + 1 } :: after })) ∧
    (s.spoils t.frame.cls true = false → t.frame.isClear = false → exec (.frameAttemptEnd (.whole false)) s =
      .next (s.withPort { s.port with tx := before ++ after, rx := s.port.rx ++ [t.frame] }))

/-- R107 to R110, R112, R113, R160, R163: the withdraw NOTICE, once carried or spoiled for the eighth time, leaves the station
in WITHDRAWN with its transmit queue empty, its timers idle and no frame but CLEAR received. Any other frame spoiled for the
eighth time is dropped: a NOTICE is lost, a MUSTER is held (with the number of the open line, the model's choice, log entry
15), a RECALL or KILL begins a withdrawal with LINK LOST, and a VERDICT, PLACE or MEASURE of an open or decided line raises
FRAME DROPPED, which queues a RECALL and a NOTICE, or in the kill period begins a withdrawal with ESCALATION. A withdrawal
leaves its NOTICE, at level 0, alone in the transmit queue. A frame in flight whose removal is noted leaves the queue
uncounted when its attempt fails, and is carried all the same. -/
def Obligations.AttemptsEndFrames : Prop :=
  (∀ (s : State) (t : TxFrame) (o : AttemptOutcome), s.condition.state = .active → s.port.withdrawalPending = true →
    s.port.clearPending = false → s.port.tx = [t] → t.inFlight = true → t.removed = false →
    s.cartridge.waiting = [] → (o = .whole false ∨ (o = .whole true ∧ t.attempts = 7)) →
    ∃ u, exec (.frameAttemptEnd o) s = .next u ∧ u.condition.state = .withdrawn ∧ u.port.tx = [] ∧
      u.port.withdrawalPending = false ∧ u.port.rx = s.port.rx.filter Frame.isClear ∧ u.tally.coverage = .idle ∧
      u.tally.verdictWait = ⟨none, none⟩ ∧ u.placement.longHold = ⟨false, false⟩ ∧
      u.tally.lines = s.tally.lines ∧ u.window = s.window ∧ u.shaper = s.shaper ∧ u.readyLamp = false) ∧
  ∀ (s gone : State) (before after : List TxFrame) (t : TxFrame), s.working = true → s.port.clearPending = false →
    s.quiet = true → s.port.tx = before ++ t :: after → t.inFlight = true →
    before.all (fun x => !x.inFlight) = true → after.all (fun x => !x.inFlight) = true →
    gone = s.withPort { s.port with tx := before ++ after } →
    (t.removed = true → ∀ o, o = .lost ∨ o = .broken ∨ o = .whole true → exec (.frameAttemptEnd o) s = .next gone) ∧
    (t.removed = true → s.spoils t.frame.cls true = false → t.frame.isClear = false →
      exec (.frameAttemptEnd (.whole false)) s =
        .next (gone.withPort { gone.port with rx := s.port.rx ++ [t.frame] })) ∧
    (t.removed = false → t.attempts = 7 →
      (t.frame.cls = .notice → exec (.frameAttemptEnd (.whole true)) s = .next gone) ∧
      (t.frame.cls = .muster → exec (.frameAttemptEnd (.whole true)) s = .next (gone.withPort { gone.port with
        heldMuster := some ⟨t.frame, s.tally.openLine?.map LineRecord.number⟩ })) ∧
      (t.frame.cls = .lineRecall ∨ t.frame.cls = .lineKill → ∃ u, exec (.frameAttemptEnd (.whole true)) s = .next u ∧
        u.port.withdrawalPending = true ∧ u.readyLamp = false ∧ u.condition.reports = [] ∧ u.tally.coverage = .idle ∧
        u.port.tx = [⟨⟨arbWord 0 .notice s.port.station, Notice.encode ⟨.linkLost, t.frame.lineNumber,
          wordField t.frame.payload 3, wordField t.frame.payload 3, none, 0⟩⟩, false, 0, false, false, false⟩]) ∧
      (∀ r, (t.frame.cls = .verdict ∨ t.frame.cls = .place) → s.tally.line? t.frame.lineNumber = some r → r.gen = 0 →
        (s.condition.killPeriod = none → recallHeld gone.port .lineRecall r.number 0 = false →
          gone.hasRoom .recallKill .lineRecall true = true → gone.hasRoom .notice .notice false = true →
          exec (.frameAttemptEnd (.whole true)) s = .next (gone.withPort { gone.port with
            tx := txInsert ⟨s.port.frame .notice (Notice.encode ⟨.frameDropped, r.number, r.start, r.start, none, 0⟩),
              false, 0, false, false, false⟩
                (txInsert ⟨s.port.frame .lineRecall (RecallMsg.encode ⟨r.number, 0, r.start, 17⟩),
              true, 0, false, false, false⟩ (before ++ after)) })) ∧
        (∀ k, s.condition.killPeriod = some k → ∃ u, exec (.frameAttemptEnd (.whole true)) s = .next u ∧
          u.port.withdrawalPending = true ∧ u.readyLamp = false ∧ u.condition.reports = [] ∧
          u.port.tx = [⟨⟨arbWord 0 .notice s.port.station, Notice.encode ⟨.escalation, r.number, r.start, r.start,
            none, 17⟩⟩, false, 0, false, false, false⟩])) ∧
      ((t.frame.cls = .verdict ∨ t.frame.cls = .place) → s.tally.line? t.frame.lineNumber = none →
        exec (.frameAttemptEnd (.whole true)) s = .next gone) ∧
      (∀ n i, t.frame.cls = .measure → s.window.killedAt t.frame.segStart = false →
        lineConcerned s t.frame.segStart = some ⟨n, 0, some i⟩ → s.condition.killPeriod = none →
        recallHeld gone.port .lineRecall n 0 = false → gone.hasRoom .recallKill .lineRecall true = true →
        gone.hasRoom .notice .notice false = true →
        exec (.frameAttemptEnd (.whole true)) s = .next (gone.withPort { gone.port with
          tx := txInsert ⟨s.port.frame .notice (Notice.encode ⟨.frameDropped, n, t.frame.segStart, i, none, 0⟩),
            false, 0, false, false, false⟩
              (txInsert ⟨s.port.frame .lineRecall (RecallMsg.encode ⟨n, 0, i, 17⟩),
            true, 0, false, false, false⟩ (before ++ after)) })) ∧
      (t.frame.cls = .measure → s.window.killedAt t.frame.segStart = true →
        exec (.frameAttemptEnd (.whole true)) s = .next gone))

/-- R99, R100, R111: a frame of another participant that no receiver spoils joins the receive queue of a station that
checks frames; a spoiled one is taken by none; one that carries the station's own number makes an ACTIVE station begin a
withdrawal and a LISTENING one enter WITHDRAWN. In RESET, PROFILING and REFUSED no frame is taken. -/
def Obligations.FrameReceived : Prop :=
  ∀ (s : State) (word : ArbWord) (payload : List Byte) (check : BitVec 16) (spoiled : Bool),
    payload.length ≤ 63 → s.port.withdrawalPending = false →
    (spoiled = true ∨ s.spoils (wordClass word) (check == checkWord word payload) = true →
      exec (.frameReceived word payload check spoiled) s = .next s) ∧
    (spoiled = false → s.spoils (wordClass word) (check == checkWord word payload) = false →
      (s.condition.state = .active ∨ s.condition.state = .listening) →
      (wordSender word ≠ s.port.station → wordClass word ≠ .clear →
        exec (.frameReceived word payload check spoiled) s =
          .next (s.withPort { s.port with rx := s.port.rx ++ [⟨word, payload⟩] })) ∧
      (wordSender word = s.port.station → ∃ t, exec (.frameReceived word payload check spoiled) s = .next t ∧
        (s.condition.state = .active → t.port.withdrawalPending = true) ∧
        (s.condition.state = .listening → t.condition.state = .withdrawn))) ∧
    ((s.condition.state = .reset ∨ s.condition.state = .profiling ∨ s.condition.state = .refused) →
      exec (.frameReceived word payload check spoiled) s = .next s)

/-- R102: a carried CLEAR of another participant joins the receive queue and empties the transmit queue but for a frame in
flight; waiting frames and any held MUSTER are discarded and CLEAR pending becomes yes. -/
def Obligations.ClearCarried : Prop :=
  ∀ (s : State) (word : ArbWord) (payload : List Byte), payload.length ≤ 63 → s.working = true →
    wordClass word = .clear → wordSender word ≠ s.port.station → s.port.rx.length < 16 →
    ∃ t, exec (.frameReceived word payload (checkWord word payload) false) s = .next t ∧
      t.port.rx = s.port.rx ++ [⟨word, payload⟩] ∧ t.port.clearPending = true ∧ t.port.waiting = [] ∧
      t.port.heldMuster = none ∧ (∀ x ∈ t.port.tx, x.inFlight = true ∧ x.removed = true) ∧
      t.window = s.window ∧ t.tally = s.tally

/-- R99: when a station spoils a frame, state by state: never in RESET, PROFILING and REFUSED, where it takes none either; in
LISTENING, and behind a CLEAR once a withdrawal began, for a wrong check word or a full receive queue; in ACTIVE also a COPY
frame that fails the copy reserve. A station in WITHDRAWN or REFUSED offers no frame. -/
def Obligations.SpoilTable : Prop :=
  ∀ (s : State) (c : FrameClass) (right : Bool),
    (s.port.withdrawalPending = false →
      ((s.condition.state = .reset ∨ s.condition.state = .profiling ∨ s.condition.state = .refused) →
        s.spoils c right = false ∧ ∀ word payload check spoiled, payload.length ≤ 63 →
          exec (.frameReceived word payload check spoiled) s = .next s) ∧
      (s.condition.state = .listening → (s.spoils c right = true ↔ right = false ∨ 16 ≤ s.port.rx.length)) ∧
      (s.condition.state = .active → (s.spoils c right = true ↔ right = false ∨ 16 ≤ s.port.rx.length ∨
        (c = .copy ∧ s.window.free < 60 * (s.port.copyFrames + 1))))) ∧
    ((s.condition.state = .withdrawn ∨ s.condition.state = .refused) → s.offers = false) ∧
    ((s.condition.state = .withdrawn ∨ s.port.withdrawalPending = true) →
      (s.port.clearPending = false → s.spoils c right = false) ∧
      (s.port.clearPending = true → (s.spoils c right = true ↔ right = false ∨ 16 ≤ s.port.rx.length)))

/-- R104: a waiting frame enters the queue when a slot it may use is free. -/
def Obligations.WaitingFrameEnters : Prop :=
  ∀ (s : State) (w : WaitingFrame) (u : Bool), s.working = true → s.port.waiting = [w] →
    s.port.slotFor w.frame.cls = some u → (w.producer = .notice ∨ w.producer = .tally ∨ w.producer = .recallKill) →
    (s.withPort { s.port with waiting := [] }).quiet = true →
    exec .waitingFrameEnters s = .next (s.withPort { s.port with
      waiting := [], tx := txInsert ⟨w.frame, u, 0, s.placement.entryMark w.frame, false, false⟩ s.port.tx })

/-! ### Frames at the head of the receive queue -/

/-- R101, R186: a frame of an unassigned class and a malformed frame are removed with no effect on any block. A payload is
malformed exactly when it is too short for its class and counts, its generation is above 1, its break kind above 4, its level
above 15, its item count 0, its opportunity count above 6, an opportunity's offset is 0, not below the item count or not above
the one before, or its entry count is 0 or above 6. -/
def Obligations.EffectlessFramesRemoved : Prop :=
  (∀ (s : State) (f : Frame) (rest : List Frame), s.takes = true → s.popped.quiet = true → s.port.rx = f :: rest →
    (f.cls = .unassigned → exec .unassignedClass s = .next s.popped) ∧
    (f.cls = .lineRecall → RecallMsg.parse f.payload = none → exec .recallFrame s = .next s.popped) ∧
    (f.cls = .lineKill → RecallMsg.parse f.payload = none → exec .killFrame s = .next s.popped) ∧
    (f.cls = .taken → f.payload.length < 2 → exec .takenFrame s = .next s.popped) ∧
    (f.cls = .verdict → VerdictMsg.parse f.payload = none → exec .verdictFrame s = .next s.popped) ∧
    (f.cls = .measure → MeasureMsg.parse f.payload = none → exec .measureFrame s = .next s.popped) ∧
    (f.cls = .place → PlaceMsg.parse f.payload = none → exec .placeFrame s = .next s.popped) ∧
    (f.cls = .notice → f.payload.length < 11 → exec .noticeFrame s = .next s.popped) ∧
    (f.cls = .muster → f.payload.length < 3 → exec .musterFrame s = .next s.popped)) ∧
  ∀ p : List Byte,
    (RecallMsg.parse p = none ↔ p.length < 6 ∨ 1 < numField p 2 1) ∧
    (VerdictMsg.parse p = none ↔ p.length < 24 ∨ 1 < numField p 2 1 ∨ 4 < numField p 7 1) ∧
    (MeasureMsg.parse p = none ↔ p.length < 12 + 6 * numField p 11 1 ∨ 15 < numField p 4 1 ∨ numField p 2 2 = 0 ∨
      6 < numField p 11 1 ∨ ∃ j, j < numField p 11 1 ∧ (numField p (13 + 6 * j) 2 = 0 ∨
        numField p 2 2 ≤ numField p (13 + 6 * j) 2 ∨
        (0 < j ∧ numField p (13 + 6 * j) 2 ≤ numField p (13 + 6 * (j - 1)) 2))) ∧
    (PlaceMsg.parse p = none ↔ p.length < 6 + 8 * (numField p 5 1 % 8) ∨ 1 < numField p 2 1 ∨
      numField p 5 1 % 8 = 0 ∨ 6 < numField p 5 1 % 8)

/-- R183, R184: a CLEAR leaves the station ACTIVE at line 0, every block at its value after CLEAR, what the profile gave kept,
and one MUSTER queued unless a further CLEAR waits; a WITHDRAWN station without a cartridge stays WITHDRAWN and keeps the
CLEARs it has received alone (R55, R102); that CLEAR pending then says whether a further one waits is the model's choice (log
entry 10). R19, R181, R182: a LISTENING station that can join at a VERDICT ending a paragraph becomes ACTIVE: the window is
anchored at its newest PARA and renumbered from the verdict's end index, the next line opens there as a paragraph's first
line, and a MUSTER is queued; at any other VERDICT it goes on listening. -/
def Obligations.EntryToActive : Prop :=
  (∀ (s : State) (f : Frame) (rest : List Frame), s.port.rx = f :: rest → f.cls = .clear →
    ((s.condition.state = .active ∨ s.condition.state = .listening ∨
        (s.condition.state = .withdrawn ∧ s.pins.cartridgePresent = true)) →
      ∃ t, exec .clearFrame s = .next t ∧ t.condition = ⟨.active, none, none, [], []⟩ ∧
        t.decoder = ⟨0, none, none, none, []⟩ ∧ t.window = Window.empty ∧
        t.splitter = Splitter.initial s.splitter.claims s.splitter.fallback true ∧ t.shaper = Shaper.initial ∧
        t.measure = { s.measure with segment := none, numerator := 0, measured := 0 } ∧
        t.cartridge = { s.cartridge with
          usable := List.replicate 16 true, waiting := []
          outstanding := s.cartridge.outstanding.map (fun o => ⟨o.who, o.addr, true⟩) } ∧
        t.tally = { TallyUnit.initial with lines := [LineRecord.opening 0 0 none []] } ∧
        t.placement = PlacementUnit.initial s.placement.response ∧
        t.port = ⟨s.port.station, s.port.levels, rest,
          if rest.any Frame.isClear then [] else
            [⟨s.port.frame .muster (musterPayload s.port.station s.splitter.claims.length s.splitter.fallback),
              false, 0, false, false, false⟩],
          [], rest.any Frame.isClear, none, false⟩ ∧
        t.readyLamp = true) ∧
    (s.condition.state = .withdrawn → s.pins.cartridgePresent = false → ∃ t, exec .clearFrame s = .next t ∧
      t.condition = s.condition ∧ t.port.rx = rest.filter Frame.isClear ∧ t.port.clearPending = rest.any Frame.isClear ∧
      t.window = s.window ∧ t.tally = s.tally ∧ t.shaper = s.shaper)) ∧
  ∀ (s : State) (f : Frame) (rest : List Frame) (m : VerdictMsg), s.condition.state = .listening →
    s.port.withdrawalPending = false → s.port.rx = f :: rest → f.cls = .verdict → VerdictMsg.parse f.payload = some m →
    (∀ a, m.lastOfPara = true → s.window.anchor? = some a →
      s.copyReserve ≤ (s.window.anchored a m.endIdx).free →
      (∃ t d, exec .verdictFrame s = .next t ∧ t.condition.state = .active ∧
        t.window.oldest = m.endIdx ∧ t.window.items = s.window.items.drop (distance s.window.oldest a + 1) ∧
        t.decoder = s.decoder ∧ t.splitter.cutting = true ∧ t.tally.roster = (s.tally.enrol f.sender).roster ∧
        t.tally.line? (m.line + 1) = some d ∧ d.start = m.endIdx ∧ d.gen = 0 ∧ d.inherited = none ∧
        t.placement.held = s.placement.held) ∧
      (s.window.items.drop (distance s.window.oldest a + 1) = [] → s.port.tx = [] → s.port.waiting = [] →
        s.port.clearPending = false → s.shaper = Shaper.initial → s.cartridge.waiting = [] → s.placement.lines = [] →
        s.placement.held = false →
        ∃ t, exec .verdictFrame s = .next t ∧ t.condition = ⟨.active, none, none, [], []⟩ ∧
          t.splitter = { s.splitter with cutPoint := m.endIdx, cutting := true } ∧
          t.tally = ⟨[LineRecord.opening (m.line + 1) m.endIdx none []], none, (s.tally.enrol f.sender).roster, .idle,
            ⟨none, none⟩, none⟩ ∧
          t.port.tx = [⟨s.port.frame .muster (musterPayload s.port.station s.splitter.claims.length s.splitter.fallback),
            false, 0, false, false, false⟩] ∧
          t.port.rx = rest ∧ t.shaper = s.shaper ∧ t.placement = s.placement)) ∧
    (s.popped.quiet = true → (m.lastOfPara = false ∨ s.window.anchor? = none ∨
        ∃ a, s.window.anchor? = some a ∧ (s.window.anchored a m.endIdx).free < s.copyReserve) →
      exec .verdictFrame s = .next (s.popped.withTally (s.tally.enrol f.sender)))

/-- R134: a MUSTER from a sender 0 to 7 adds it to the roster, and a NOTICE of a withdraw condition from such a sender
removes it; frames of senders 8 to 15 do neither. -/
def Obligations.RosterFollowsFrames : Prop :=
  ∀ (s : State) (f : Frame) (rest : List Frame), s.takes = true → s.popped.quiet = true → s.port.rx = f :: rest →
    (f.cls = .muster → 3 ≤ f.payload.length → ∃ t, exec .musterFrame s = .next t ∧
      t = s.popped.withTally { s.tally with roster := t.tally.roster } ∧
      ∀ m, m ∈ t.tally.roster ↔ m ∈ s.tally.roster ∨ (m = f.sender ∧ f.sender < 8)) ∧
    (f.cls = .notice → 11 ≤ f.payload.length → ∃ t, exec .noticeFrame s = .next t ∧
      t = s.popped.withTally { s.tally with roster := t.tally.roster } ∧
      ∀ m, m ∈ t.tally.roster ↔ m ∈ s.tally.roster ∧
        ¬ (m = f.sender ∧ f.sender < 8 ∧ 48 ≤ numField f.payload 0 1 ∧ numField f.payload 0 1 ≤ 52))

/-- R151 to R156: under AT FRAME a HOLD makes the station held, records the sender, starts the long-hold timer and holds back
every queued PLACE frame; a RELEASE undoes it. Under AT LINE END the frames of the line of the first PLACE queued, the
finishing line, are not held back. Under REPLACE LINE the queued PLACE frames of DECIDED lines are removed, and their
placements are withdrawn; a RELEASE builds them again from entry 0, line after line in frames of at most 6 entries, and all
of them enter the queue when it has the slots. A LISTENING station keeps the hold and does nothing else. Under every response
a HOLD while held and a RELEASE while not held change nothing. -/
def Obligations.HoldAndRelease : Prop :=
  (∀ (s : State) (f : Frame) (rest : List Frame), s.working = true → s.popped.quiet = true → s.port.rx = f :: rest →
    s.placement.response = .atFrame →
    (f.cls = .hold → s.placement.held = true → exec .holdFrame s = .next s.popped) ∧
    (f.cls = .release → s.placement.held = false → exec .releaseFrame s = .next s.popped) ∧
    (f.cls = .hold → s.placement.held = false → exec .holdFrame s = .next
      ((s.withPort { s.port with rx := rest, tx := s.port.tx.map (fun x =>
        if x.frame.cls = .place then { x with heldBack := true } else x) }).withPlacement
        { s.placement with held := true, holder := some f.sender, longHold := ⟨true, false⟩ })) ∧
    (f.cls = .release → s.placement.held = true → exec .releaseFrame s = .next
      ((s.withPort { s.port with rx := rest, tx := s.port.tx.map (fun x => { x with heldBack := false }) }).withPlacement
        { s.placement with held := false, holder := none, longHold := ⟨false, false⟩ }))) ∧
  ∀ (s : State) (f : Frame) (rest : List Frame), s.popped.quiet = true → s.port.rx = f :: rest →
    (s.working = true → s.placement.response = .atLineEnd →
      (f.cls = .hold → s.placement.held = false → ∀ line,
        line = (s.port.tx.find? (fun x => x.frame.cls == .place)).map (fun x => x.frame.lineNumber) →
        exec .holdFrame s = .next ((s.withPort { s.port with rx := rest, tx := s.port.tx.map (fun x =>
          if x.frame.cls = .place ∧ line ≠ some x.frame.lineNumber then { x with heldBack := true } else x) }).withPlacement
          { s.placement with held := true, holder := some f.sender, finishing := line, longHold := ⟨true, false⟩ })) ∧
      (f.cls = .release → s.placement.held = true → exec .releaseFrame s = .next
        ((s.withPort { s.port with rx := rest, tx := s.port.tx.map (fun x => { x with heldBack := false }) }).withPlacement
          { s.placement with held := false, holder := none, finishing := none, longHold := ⟨false, false⟩ }))) ∧
    (s.working = true → s.placement.response = .replaceLine →
      (f.cls = .hold → s.placement.held = false → exec .holdFrame s = .next { s with
        port := { s.port with rx := rest, tx := s.port.tx.filterMap (fun x =>
          if x.frame.cls = .place ∧ s.tally.decided x.frame.lineNumber = true then
            (if x.inFlight then some { x with removed := true } else none)
          else some x) }
        placement := { s.placement with
          held := true, holder := some f.sender, longHold := ⟨true, false⟩
          lines := s.placement.lines.map (fun p => if s.tally.decided p.number = true then
            { p with toReplace := true, nextEntry := 0, carried := p.entryCount == 0,
                     marks := List.replicate p.entryCount false } else p) }
        tally := { s.tally with lines := s.tally.lines.map (fun r => if r.state = .decided then
          { r with placed := (s.placement.line? r.number).any (fun p => p.entryCount == 0) } else r) } }) ∧
      (∀ p, f.cls = .release → s.placement.held = true → s.placement.lines = [p] → p.toReplace = true →
        0 < p.entryCount → p.entryCount ≤ 6 → s.hasRoom .placement .place false = true →
        exec .releaseFrame s = .next ((s.withPort { s.port with
          rx := rest
          tx := txInsert ⟨s.placeFrame { p with nextEntry := 0 }, false, 0, false, false, false⟩ s.port.tx }).withPlacement
          { s.placement with held := false, holder := none, longHold := ⟨false, false⟩
                             lines := [{ p with toReplace := false, nextEntry := p.entryCount }] }))) ∧
    (s.condition.state = .listening →
      (f.cls = .hold → s.placement.held = false → exec .holdFrame s = .next
        (s.popped.withPlacement { s.placement with held := true, holder := some f.sender })) ∧
      (f.cls = .hold → s.placement.held = true → exec .holdFrame s = .next s.popped) ∧
      (f.cls = .release → s.placement.held = true → exec .releaseFrame s = .next
        (s.popped.withPlacement { s.placement with held := false, holder := none, longHold := ⟨false, false⟩ })) ∧
      (f.cls = .release → s.placement.held = false → exec .releaseFrame s = .next s.popped)) ∧
    (s.working = true →
      (f.cls = .hold → s.placement.held = true → exec .holdFrame s = .next s.popped) ∧
      (f.cls = .release → s.placement.held = false → exec .releaseFrame s = .next s.popped) ∧
      (∀ frames, f.cls = .release → s.placement.held = true → s.placement.response = .replaceLine →
        (s.placement.lines.map (·.number)).Nodup →
        frames = (s.placement.lines.filter (·.toReplace)).flatMap s.roundFrames →
        s.port.clearPending = false → s.port.ordinaryUsed + frames.length ≤ 24 →
        exec .releaseFrame s = .next ((s.withPort { s.port with
          rx := rest
          tx := frames.foldl (fun q x => txInsert ⟨x, false, 0, false, false, false⟩ q) s.port.tx }).withPlacement
          { s.placement with
            held := false, holder := none, longHold := ⟨false, false⟩
            lines := s.placement.lines.map (fun p =>
              if p.toReplace then { p with toReplace := false, nextEntry := p.entryCount } else p) })))

/-- R115, R149: an own PLACE frame of a line's generation and present round marks its entries carried; when that completes the
round, the line's placements are carried, and a DECIDED line whose own verdict is carried becomes SENT. No other PLACE frame
has an effect: one of another sender, of another generation, of a line whose placements are to be replaced, or of a line with
no placement state. -/
def Obligations.PlaceFrameCarries : Prop :=
  (∀ (p : PlaceState) (m : PlaceMsg),
    (∀ i b, p.marks[i]? = some b → (p.afterCarry m).marks[i]? =
      some (b || decide (m.first ≤ i ∧ i < m.first + m.entries.length))) ∧
    (p.afterCarry m).marks.length = p.marks.length ∧
    ((p.afterCarry m).carried = true ↔ ∀ b ∈ (p.afterCarry m).marks, b = true) ∧
    p.afterCarry m = { p with marks := (p.afterCarry m).marks, carried := (p.afterCarry m).carried }) ∧
  ∀ (s : State) (f : Frame) (rest : List Frame) (m : PlaceMsg), s.working = true → s.popped.quiet = true →
    s.port.rx = f :: rest → f.cls = .place → PlaceMsg.parse f.payload = some m →
    (f.sender ≠ s.port.station → exec .placeFrame s = .next s.popped) ∧
    (s.placement.line? m.line = none → exec .placeFrame s = .next s.popped) ∧
    (∀ p, f.sender = s.port.station → s.placement.line? m.line = some p → p.gen = m.gen → p.toReplace = false →
      ((p.afterCarry m).carried = false →
        exec .placeFrame s = .next (s.popped.withPlacement (s.placement.mapLine m.line (fun _ => p.afterCarry m)))) ∧
      ((p.afterCarry m).carried = true → ∃ t, exec .placeFrame s = .next t ∧
        t.placement.line? m.line = some (p.afterCarry m) ∧ t.port = s.popped.port ∧ t.window = s.window ∧
        t.shaper = s.shaper ∧ t.condition = s.condition ∧
        ∀ r, s.tally.line? m.line = some r → t.tally.line? m.line = some { r with
          placed := true, state := if r.state = .decided ∧ r.ownVerdict = true then .sent else r.state })) ∧
    (∀ p, f.sender = s.port.station → s.placement.line? m.line = some p → (p.gen ≠ m.gen ∨ p.toReplace = true) →
      exec .placeFrame s = .next s.popped)

/-! ### Tally unit -/

/-- R118 to R120, R123, R128: a MEASURE whose range the window admits and that overlaps no item is entered, in copy order, in
the tally of the open line it belongs to, and no item is lost. With two lines in hand that line is not decided, and the scan
may add spaces and thins; when the line waits for coverage at another gap, nothing else changes but that the coverage timer
restarts. A tally in copy order stays in copy order. -/
def Obligations.MeasureEnters : Prop :=
  (∀ (start : CopyIndex) (x : TallyItem) (l : List TallyItem),
    l.Pairwise (fun a b => distance start a.start < distance start b.start) →
    (∀ y ∈ x :: l, distance start y.start < 32768) → (∀ y ∈ l, y.start ≠ x.start) →
    (insertItem x l).Pairwise (fun a b => distance start a.start < distance start b.start) ∧
      (insertItem x l).Perm (x :: l)) ∧
  ∀ (s : State) (f : Frame) (rest : List Frame) (m : MeasureMsg) (r : LineRecord) (g : SegItem), s.working = true →
    s.port.rx = f :: rest → f.cls = .measure → MeasureMsg.parse f.payload = some m →
    s.window.admits m.start m.count = true → s.tally.owning? m.start = some r → s.tally.openLine? = some r →
    r.tally.all (fun x => !rangesOverlap x.start x.range m.start m.count) = true → r.tally.length < 48 →
    g = ⟨f.sender, m.start, m.count, m.level, m.width, m.opps, m.elongCount, m.elongWidth, m.continues, none⟩ →
    (2 ≤ s.tally.inHand.length → ∃ t d, exec .measureFrame s = .next t ∧ t.tally.openLine? = some d ∧
      d.number = r.number ∧ d.gen = r.gen ∧ d.start = r.start ∧ (∀ x ∈ r.tally, x ∈ d.tally) ∧
      segmentsOf d.tally = segmentsOf (insertItem (.segment g) r.tally) ∧ t.window = s.window ∧ t.decoder = s.decoder) ∧
    (∀ it code, s.popped.quiet = true → s.tally.lines.all (fun x => x.gapChecked) = true → r.params.isSome = true →
      r.scan.stop = .gap → r.overfull = false → s.window.item? r.scan.point = some it → it.body = .character code →
      r.segmentAt? r.scan.point = none → m.start ≠ r.scan.point →
      exec .measureFrame s = .next (s.popped.withTally { s.tally with
        coverage := .first
        lines := changeFirst (fun x => x == r) (fun x => { x with tally := insertItem (.segment g) x.tally })
          s.tally.lines }))

/-- R126, R127: a decidable open line whose scan has nothing left to do is decided when fewer than two lines are in hand:
its record holds the break the rule takes and a setting. -/
def Obligations.DeferredDecisionMade : Prop :=
  ∀ (s : State) (r : LineRecord) (p : LineParams), s.working = true → s.tally.openLine? = some r →
    s.tally.line? r.number = some r → r.params = some p → r.decidable = true → s.tally.inHand.length < 2 →
    checkGapMark s = s → runScan s = s →
    ∃ t d x, exec .deferredDecision s = .next t ∧ t.tally.line? r.number = some d ∧ d.state = .decided ∧
      d.endIdx = some (r.chooseBreak p.measure).endIdx ∧ d.decision = some x ∧ x.kind = (r.chooseBreak p.measure).kind ∧
      x.setting = lineSetting s.measure.multiple p (r.chooseBreak p.measure).last (r.keptItems (r.chooseBreak p.measure))

/-- R126: a decision that is not overset breaks where the line fits: at the last opportunity whose natural width less shrink
is within the measure, or at the paragraph end. An overset one takes the first opportunity there is. -/
def Obligations.BreakFits : Prop :=
  ∀ (r : LineRecord) (m : Nat),
    (∀ o, (r.chooseBreak m).overset = false → (r.chooseBreak m).opp = some o →
      o ∈ r.scan.opps ∧ o.fits m = true ∧
        ∀ before after, r.scan.opps = before ++ o :: after → o ∉ after → ∀ x ∈ after, x.fits m = false) ∧
    ((r.chooseBreak m).overset = false → (r.chooseBreak m).opp = none →
      r.scan.stop = .para ∧ r.scan.width - r.scan.shrink ≤ m ∧ (r.chooseBreak m).kind = .paragraph) ∧
    ((r.chooseBreak m).overset = true → (∀ o ∈ r.scan.opps, o.fits m = false) ∧
      (r.chooseBreak m).opp = r.scan.opps.head? ∧ (r.chooseBreak m).kind = .overset)

/-- R131, R132, R134: a verdict for the open line, of its generation, is stored in its record in place of an earlier one of
its sender, and its sender joins the roster. That an own VERDICT is stored there too is the model's choice (log entry 17). -/
def Obligations.VerdictStored : Prop :=
  ∀ (s : State) (f : Frame) (rest : List Frame) (m : VerdictMsg) (r : LineRecord), s.working = true →
    s.popped.quiet = true → s.port.rx = f :: rest → f.cls = .verdict → VerdictMsg.parse f.payload = some m →
    s.tally.fenced m = false → s.tally.line? m.line = some r → r.state = .opened → m.gen = r.gen →
    exec .verdictFrame s = .next (s.popped.withTally ((s.tally.enrol f.sender).mapLine r.number
      (fun x => x.store ⟨f.sender, m.gen, m.figures⟩))) ∧
    ((r.verdicts.filter (fun x => x.sender != f.sender)).length < 8 →
      (⟨f.sender, m.gen, m.figures⟩ : VerdictSeen) ∈ (r.store ⟨f.sender, m.gen, m.figures⟩).verdicts)

/-- R131, R133, R135, R171: the station's own verdict for a decided line, handled with the figures the line was decided on,
marks the line's verdict carried, makes the line SENT when its placements are carried, starts the verdict-wait timer when
it is idle, and ends the kill period that waits for the line. -/
def Obligations.OwnVerdictCarried : Prop :=
  ∀ (s : State) (f : Frame) (rest : List Frame) (m : VerdictMsg) (r : LineRecord), s.working = true →
    s.popped.quiet = true → s.port.rx = f :: rest → f.cls = .verdict → f.sender = s.port.station →
    VerdictMsg.parse f.payload = some m → s.tally.fenced m = false → s.tally.line? m.line = some r →
    r.state = .decided → r.ownVerdict = false → m.gen = r.gen → r.figures? = some m.figures →
    s.condition.reports = [] →
    ∃ t d, exec .verdictFrame s = .next t ∧ t.tally.line? r.number = some d ∧ d.ownVerdict = true ∧
      d.state = (if r.placed then .sent else .decided) ∧ d.decision = r.decision ∧
      (s.tally.verdictWait.watched = none → t.tally.verdictWait.watched = some r.number) ∧
      (s.condition.killPeriod = some r.number → t.condition.killPeriod = none) ∧
      (s.condition.killPeriod ≠ some r.number → t.condition.killPeriod = s.condition.killPeriod)

/-- R14, R114, R136: a TAKEN that names a line in hand frees it and the lines in hand before it, whether a line is open behind
them or not; the first clause takes the only line in hand and no line open. Their records go, the figures of the last become
the taken summary, and the copy before their end indices leaves. A TAKEN that names no line in hand frees nothing. -/
def Obligations.TakenFreesLine : Prop :=
  (∀ (s : State) (f : Frame) (rest : List Frame) (n : LineNumber) (r : LineRecord), s.working = true →
    s.port.rx = f :: rest → f.cls = .taken → parseTaken f.payload = some n → s.tally.takenBy n = [r] →
    s.tally.openLine? = none →
    ∃ t, exec .takenFrame s = .next t ∧ t.tally.taken = r.summary ∧ t.tally.line? r.number = none ∧
      t.tally.roster = s.tally.roster ∧ t.window = s.window.leaveBefore (r.endIdx.getD r.start) ∧
      t.decoder = s.decoder) ∧
  ∀ (s : State) (f : Frame) (rest : List Frame) (n : LineNumber), s.working = true →
    s.port.rx = f :: rest → f.cls = .taken → parseTaken f.payload = some n →
    (∀ rs r, s.tally.takenBy n = rs ++ [r] →
      (∀ x ∈ rs ++ [r], ∀ o ∈ s.tally.lines, o.state = .opened → lineBehind x.number o.number = true) →
      ∃ t, exec .takenFrame s = .next t ∧ t.tally.taken = r.summary ∧
        (∀ x ∈ rs ++ [r], t.tally.line? x.number = none) ∧ t.tally.roster = s.tally.roster ∧
        t.window = (rs ++ [r]).foldl (fun w x => w.leaveBefore (x.endIdx.getD x.start)) s.window ∧
        t.decoder = s.decoder) ∧
    ((∃ r ∈ s.tally.inHand, r.number = n) → s.tally.takenBy n = s.tally.inHand.filter (fun r => !lineAhead r.number n)) ∧
    ((∀ r ∈ s.tally.inHand, r.number ≠ n) → s.popped.quiet = true → settleTally s.popped = s.popped →
      exec .takenFrame s = .next s.popped)

/-- R128 to R130: the coverage timer's first stage ends in the second, and the fallback station then plans boxes for the open
line's uncovered span. -/
def Obligations.CoverageFirstEnds : Prop :=
  ∀ s : State, s.working = true → s.tally.coverage = .first → s.quiet = true →
    (s.splitter.fallback = false →
      exec .coverageTimerFirstEnd s = .next (s.withTally { s.tally with coverage := .second })) ∧
    (∀ r, s.splitter.fallback = true → s.tally.openLine? = some r →
      exec .coverageTimerFirstEnd s = .next ((s.withTally { s.tally with coverage := .second }).withShaper
        { s.shaper with plan := s.shaper.plan ++ s.boxesDue r }))

/-- R130, R163: the second stage's end, outside a kill period, queues a RECALL for the open line that names COVERAGE TIMEOUT,
and leaves the timer expired. It queues one when the station has none for the line yet; that a RECALL or KILL in flight whose
removal is noted does not count is the model's choice (log entry 18). -/
def Obligations.CoverageSecondEnds : Prop :=
  ∀ (s : State) (r : LineRecord), s.working = true → s.tally.coverage = .second → s.quiet = true →
    s.tally.openLine? = some r → s.condition.killPeriod = none →
    s.hasRoom .recallKill .lineRecall true = true → s.hasRoom .notice .notice false = true →
    recallHeld s.port .lineRecall r.number r.gen = false →
    ∃ t x, exec .coverageTimerSecondEnd s = .next t ∧ t.tally.coverage = .expired ∧ x ∈ t.port.tx ∧ x.urgent = true ∧
      x.frame = s.port.frame .lineRecall (RecallMsg.encode ⟨r.number, r.gen, r.start, 18⟩) ∧ t.tally.lines = s.tally.lines

/-- R135, R162: when the verdict-wait timer runs out, the roster keeps this station and the members that have answered for the
watched line, and the next line is watched; a member that has not answered is reported at once with STATION LOST. -/
def Obligations.VerdictWaitExpires : Prop :=
  ∀ (s : State) (n : LineNumber) (r : LineRecord), s.working = true → s.tally.verdictWait.watched = some n →
    s.tally.line? n = some r →
    (∃ t, exec .verdictWaitExpiry s = .next t ∧
      (∀ m, m ∈ t.tally.roster ↔ m ∈ s.tally.roster ∧ (m = s.port.station ∨ r.answeredBy m = true)) ∧
      t.window = s.window ∧ t.decoder = s.decoder) ∧
    (s.quiet = true →
      (∃ t, exec .verdictWaitExpiry s = .next t ∧ t.tally = { s.tally with
        roster := t.tally.roster, verdictWait := ⟨s.tally.verdictWait.next, none⟩ }) ∧
      (∀ m, s.tally.roster.filter (fun x => x != s.port.station && !r.answeredBy x) = [m] →
        s.hasRoom .notice .notice false = true →
        exec .verdictWaitExpiry s = .next ((s.withTally { s.tally with
          roster := s.tally.roster.filter (fun x => x != m), verdictWait := ⟨s.tally.verdictWait.next, none⟩ }).withPort
          { s.port with
            tx := txInsert ⟨s.port.frame .notice (Notice.encode ⟨.stationLost, r.number, r.start, r.start + 1, some m, 0⟩),
              false, 0, false, false, false⟩ s.port.tx })))

/-! ### Conditions, recall and kill -/

/-- R18, R163: a copy gap marked on the open line's start item raises COPY GAP against it, and a KILL of the line is queued in
an urgent slot when the station has none for the line yet; that a KILL in flight whose removal is noted does not count is the
model's choice (log entry 18). -/
def Obligations.DeferredCopyGapKills : Prop :=
  ∀ (s : State) (r : LineRecord) (it : Item) (g : GapNote), s.working = true → s.quiet = true →
    s.tally.openLine? = some r → s.window.holds r.start = true → s.window.item? r.start = some it → it.gaps = [g] →
    r.gapChecked = false → s.condition.kill = none → s.hasRoom .recallKill .lineKill true = true →
    s.hasRoom .notice .notice false = true → recallHeld s.port .lineKill r.number r.gen = false →
    ∃ t x, exec .deferredCopyGap s = .next t ∧ x ∈ t.port.tx ∧ x.urgent = true ∧
      x.frame = s.port.frame .lineKill (RecallMsg.encode ⟨r.number, r.gen, r.start, 34⟩) ∧ t.window = s.window

/-- R162: the traps held for a line whose own verdict has been carried leave the list and are reported, each in one NOTICE. -/
def Obligations.TrapsReported : Prop :=
  ∀ (s : State) (r : LineRecord) (t : Trap), s.working = true → s.quiet = true → s.tally.inHand = [r] →
    r.ownVerdict = true → s.tally.taken = none → s.condition.reports = [t] → r.spans t.item = true →
    s.hasRoom .notice .notice false = true →
    exec .trapReport s = .next ((s.withCondition { s.condition with reports := [] }).withPort { s.port with
      tx := txInsert ⟨s.port.frame .notice (Notice.encode ⟨t.code, r.number, t.item, t.item + 1, t.ext, 0⟩),
        false, 0, false, false, false⟩ s.port.tx })

/-- R137, R150, R164, R165: the first recall of a line held at generation 0 sets it OPEN at generation 1, whatever state it
was in, and moves no copy (with no kill in progress; that killed copy behind it does not matter is the model's choice, log entry
18). With a character at its start and nothing outstanding, its decision, end index, verdicts and tally
are gone, its parameters stay, the later lines and their placement states are released, the fence is set to it, and it waits
for coverage. R116, R156, R169: a kill whose PARA is held ends: the next line opens at the item after it, as a paragraph's
first line, the fence is set to it, and a LONG HOLD raised while every line held was SENT takes that line's start index (how
it waits is the model's choice, log entry 19). -/
def Obligations.RecallAndKillOpenLines : Prop :=
  (∀ (s : State) (f : Frame) (rest : List Frame) (m : RecallMsg) (r : LineRecord), s.working = true →
    s.port.rx = f :: rest → f.cls = .lineRecall → RecallMsg.parse f.payload = some m → m.gen = 0 →
    s.tally.isTaken m.line = false → s.tally.line? m.line = some r → r.start = m.start → r.gen = 0 →
    s.condition.kill = none →
    (∃ t d, exec .recallFrame s = .next t ∧ t.tally.line? m.line = some d ∧ d.gen = 1 ∧ d.start = r.start ∧
      t.window = s.window ∧ t.decoder = s.decoder) ∧
    (∀ it code, s.popped.quiet = true → s.window.item? r.start = some it → it.body = .character code →
      r.params.isSome = true → (s.tally.lines.takeWhile (fun x => x.number != m.line)).all (fun x => x.state != .opened) = true →
      ∃ t d, exec .recallFrame s = .next t ∧ t.tally.openLine? = some d ∧
        t.tally.lines = s.tally.lines.takeWhile (fun x => x.number != m.line) ++ [d] ∧ d.number = r.number ∧
        d.gen = 1 ∧ d.state = .opened ∧ d.start = r.start ∧ d.endIdx = none ∧ d.params = r.params ∧
        d.inherited = r.inherited ∧ d.decision = none ∧ d.verdicts = [] ∧ d.tally = [] ∧ d.ownVerdict = false ∧
        d.placed = false ∧ d.scan = ⟨r.start, 0, 0, [], .gap⟩ ∧ t.tally.fence = some r.number ∧
        t.tally.coverage = .first ∧ t.tally.taken = s.tally.taken ∧
        t.placement.lines = s.placement.lines.filter (fun p => !(p.number == r.number || lineAhead p.number r.number)))) ∧
  (∀ (s : State) (k : KillInProgress) (p : CopyIndex), s.working = true → s.condition.kill = some k → k.para = none →
    s.window.para? k.start = some p → s.tally.lines.all (fun x => x.number != k.next && x.state != .opened) = true →
    (∃ t d, exec .killEnd s = .next t ∧ t.condition.kill = none ∧ t.condition.killPeriod = s.condition.killPeriod ∧
      t.tally.line? k.next = some d ∧ d.start = p + 1 ∧ d.gen = 0 ∧ d.inherited = none ∧ t.window = s.window.purge) ∧
    (s.window.holds (p + 1) = false → s.nothingWaits = true → s.noStoreWait = true → s.shaper.op = none →
      s.shaper.boxOp = none → ∃ t, exec .killEnd s = .next t ∧
        t.tally.lines = s.tally.lines ++ [LineRecord.opening k.next (p + 1) none []] ∧ t.tally.fence = some k.next ∧
        t.placement.unreported = [] ∧
        t.condition.reports =
          (s.condition.reports ++ s.placement.unreported.map (fun h => (⟨.longHold, p + 1, h⟩ : Trap))).take 32)) ∧
  ∀ s : State, s.working = true → s.nothingWaits = true → s.noStoreWait = true → s.shaper.op = none →
    s.shaper.boxOp = none → s.placement.longHold.running = true → s.tally.lines.all (fun r => r.state == .sent) = true →
    s.condition.reports.length + s.placement.unreported.length < 32 →
    exec .longHoldExpiry s = .next (s.withPlacement { s.placement with
      longHold := ⟨false, true⟩, unreported := s.placement.unreported ++ [s.placement.holder] })

/-- R15, R164, R167, R168, R171: a KILL, or a RECALL of generation 1, that matches a line whose PARA is not held kills every
held item from the line's start, closes the line and those after it, and leaves the kill in progress with the kill period
set to the line it will open. -/
def Obligations.KillWithoutPara : Prop :=
  ∀ (s : State) (f : Frame) (rest : List Frame) (m : RecallMsg) (r : LineRecord), s.working = true →
    s.port.rx = f :: rest → RecallMsg.parse f.payload = some m → s.tally.isTaken m.line = false →
    s.tally.line? m.line = some r → r.start = m.start → s.window.para? r.start = none → s.condition.kill = none →
    (∀ x ∈ s.tally.lines, x.state = .opened → lineBehind x.number r.number = false) →
    ∀ c, (c = .killFrame ∧ f.cls = .lineKill ∧ r.gen ≤ m.gen) ∨ (c = .recallFrame ∧ f.cls = .lineRecall ∧ m.gen = 1) →
      ∃ t, exec c s = .next t ∧ t.condition.kill = some ⟨r.number, r.start, r.number + 1, none⟩ ∧
        t.condition.killPeriod = some (r.number + 1) ∧
        t.tally.lines = s.tally.lines.filter (fun x => lineBehind x.number r.number) ∧
        t.window = (s.window.markKilled r.start none none).purge

/-- R58, R61, R64, R71, R73: a shaping operation yields at most one glyph record for each character, and a box build exactly
one; a cut yields no more glyph records than the segment had. The commands that grant a reservation keep the glyph records
held and reserved within 768. -/
def Obligations.GlyphStoreBounds : Prop :=
  (∀ (env : ReadEnv) (inp : ShapeInput) (ws : List CartWord) (res : ShapeResult) (st : ReadState),
    runReader (shapeSegment env inp) ws = (.ok res, st) → res.glyphs.length ≤ inp.chars.length) ∧
  (∀ (env : ReadEnv) (start : CopyIndex) (chars : List ShapeChar) (ws : List CartWord) (res : ShapeResult) (st : ReadState),
    runReader (shapeBox env start chars) ws = (.ok res, st) → res.glyphs.length = chars.length) ∧
  (∀ (gs : List GlyphRecord) (o : Opportunity), o.split < gs.length → (firstPartGlyphs gs o).length ≤ gs.length) ∧
  ∀ (c : Instr) (s t : State), c = .shapingStart ∨ c = .storeWaitGranted ∨ c = .boxBuildStart →
    s.shaper.remainder = none → s.shaper.held + s.shaper.reserved ≤ 768 → exec c s = .next t →
    t.shaper.held + t.shaper.reserved ≤ 768

/-- R109: a held MUSTER enters the queue again at a paragraph's first line that opened after the MUSTER was dropped; that the
line opened after the drop is told by its number, which is the model's choice (log entry 15). -/
def Obligations.HeldMusterRequeued : Prop :=
  ∀ (s : State) (h : HeldMuster) (r : LineRecord), s.working = true → s.quiet = true → s.port.heldMuster = some h →
    h.frame.cls = .muster → s.tally.openLine? = some r → r.inherited = none → h.since ≠ some r.number →
    s.hasRoom .tally .muster false = true →
    exec .heldMusterRequeued s = .next (s.withPort { s.port with
      heldMuster := none, tx := txInsert ⟨h.frame, false, 0, false, false, false⟩ s.port.tx })

/-- R160: a pending abort notice whose PARA is held is queued, with the item after the PARA as its resume index. -/
def Obligations.PendingNoticeQueued : Prop :=
  ∀ (s : State) (n : PendingNotice) (p : CopyIndex), s.working = true → s.quiet = true → s.condition.notices = [n] →
    s.window.para? n.after = some p → s.hasRoom .notice .notice false = true →
    exec .pendingAbortNotice s = .next ((s.withCondition { s.condition with notices := [] }).withPort { s.port with
      tx := txInsert ⟨s.port.frame .notice (Notice.encode { n.notice with resume := p + 1 }),
        false, 0, false, false, false⟩ s.port.tx })

/-- R156, R162: the long-hold timer's end raises LONG HOLD once in the hold, its item the start index of the oldest line that is
not SENT, whether it is DECIDED or open: the timer then stands, and its end raises nothing more. While no line in hand whose
own verdict is carried holds that item the trap waits in the report list; when one does, its NOTICE is queued at once. -/
def Obligations.LongHoldRaised : Prop :=
  (∀ (s : State) (r : LineRecord) (holder : Nat), s.working = true → s.quiet = true →
    s.placement.longHold.running = true → s.placement.holder = some holder →
    s.tally.lines.find? (fun x => x.state != .sent) = some r → s.tally.inHand.all (fun x => !x.spans r.start) = true →
    s.window.behind r.start = false → s.condition.reports.length < 32 →
    exec .longHoldExpiry s = .next ((s.withPlacement { s.placement with longHold := ⟨false, true⟩ }).withCondition
      { s.condition with reports := s.condition.reports ++ [⟨.longHold, r.start, some holder⟩] })) ∧
  ∀ (s : State), s.working = true → s.quiet = true →
    (s.placement.longHold.running = false → exec .longHoldExpiry s = .next s) ∧
    (∀ r, s.placement.longHold.running = true → s.tally.lines.find? (fun x => x.state != .sent) = some r →
      ((∀ x ∈ s.tally.inHand, x.spans r.start = true → x.ownVerdict = false) → s.window.behind r.start = false →
        s.condition.reports.length < 32 →
        exec .longHoldExpiry s = .next ((s.withPlacement { s.placement with longHold := ⟨false, true⟩ }).withCondition
          { s.condition with reports := s.condition.reports ++ [⟨.longHold, r.start, s.placement.holder⟩] })) ∧
      (∀ x, s.tally.inHand.find? (fun x => x.spans r.start && x.ownVerdict) = some x →
        s.hasRoom .notice .notice false = true →
        exec .longHoldExpiry s = .next ((s.withPlacement { s.placement with longHold := ⟨false, true⟩ }).withPort
          { s.port with
            tx := txInsert ⟨s.port.frame .notice
              (Notice.encode ⟨.longHold, x.number, r.start, r.start + 1, s.placement.holder, 0⟩),
              false, 0, false, false, false⟩ s.port.tx })))

/-! ### Line records, step by step -/

/-- R114, R117, R118, R168: right after reset, and after every step from any state where they hold: the open line is the last
record and the only open one, none is open while a kill waits, at most 2 lines are in hand, no tally holds more than 48 items,
and the segments of an open line are whole and do not overlap. -/
def Obligations.StepKeepsLinesSound : Prop :=
  State.reset.LinesSound ∧ ∀ s t : State, s.LinesSound → step s = .next t → t.LinesSound

/-! ### Encodings -/

/-- 12.2, R186: a RECALL, KILL or VERDICT payload, a well-formed MEASURE, and a PLACE of 1 to 6 entries, as this station builds
them, read back as the message they were built from, every field at every value its width admits. A NOTICE and a MUSTER, whose
fields the station does not read back one by one, hold each field at the place 12.2 gives it, and a condition is known by its
code. -/
def Obligations.FramesRoundTrip : Prop :=
  (∀ m : RecallMsg, m.gen ≤ 1 → m.cause < 256 → RecallMsg.parse m.encode = some m) ∧
  (∀ m : VerdictMsg, m.gen ≤ 1 → m.natural < 4294967296 → m.setWidth < 4294967296 → m.spaces < 256 →
    m.points < 65536 → m.glyphs < 65536 → m.leading < 65536 → VerdictMsg.parse m.encode = some m) ∧
  (∀ m : MeasureMsg, m.wellFormed = true → m.count < 65536 → m.width < 16777216 → m.elongWidth < 65536 →
    m.elongCount < 16 → (∀ o ∈ m.opps, o.points < 16 ∧ o.width < 16777216) → MeasureMsg.parse m.encode = some m) ∧
  (∀ m : PlaceMsg, m.gen ≤ 1 → m.first < 65536 → 1 ≤ m.entries.length → m.entries.length ≤ 6 →
    (∀ e ∈ m.entries, e.glyph < 4096 ∧ e.slot < 16 ∧ e.x < 16384 ∧ -32768 ≤ e.y ∧ e.y ≤ 32767 ∧ e.setSize < 512) →
    PlaceMsg.parse m.encode = some m) ∧
  (∀ n : Notice, (∀ e, n.ext = some e → e < 16) → n.cause < 256 →
    n.encode.length = 11 ∧ parseNotice n.encode = some n.code.code ∧ numField n.encode 0 1 = n.code.code ∧
    numField n.encode 1 1 = n.code.cls.code ∧ numField n.encode 2 1 = n.code.category ∧
    wordField n.encode 3 = n.line ∧ wordField n.encode 5 = n.item ∧ wordField n.encode 7 = n.resume ∧
    hasBit (numField n.encode 9 1) 128 = n.ext.isSome ∧ numField n.encode 9 1 % 16 = n.ext.getD 0 ∧
    numField n.encode 10 1 = n.cause) ∧
  (∀ c d : CondCode, c.code = d.code → c = d) ∧
  ∀ (station claims : Nat) (fallback : Bool), station < 256 → claims < 256 →
    (musterPayload station claims fallback).length = 3 ∧ musterFormed (musterPayload station claims fallback) = true ∧
    numField (musterPayload station claims fallback) 0 1 = station ∧
    numField (musterPayload station claims fallback) 1 1 = claims ∧
    numField (musterPayload station claims fallback) 2 1 = (if fallback then 1 else 0)

/-! ### Invariants that every step keeps -/

/-- The bounds of State.reset: every invariant below holds of the machine right after reset. -/
def Obligations.ResetIsSound : Prop :=
  State.reset.BusSound ∧ State.reset.CopySound ∧ State.reset.SplitterSound ∧ State.reset.RosterSound ∧
    State.reset.ListsSound ∧ State.reset.RecordsSound

/-- R97, R101, R102, R103, R113: every step keeps the bus port's bounds and the order of its transmit queue. -/
def Obligations.StepKeepsBusSound : Prop :=
  ∀ s t : State, s.BusSound → step s = .next t → t.BusSound

/-- R12, R16: every step keeps the copy window within 2048 items, and a working station's window able to take every COPY frame
it has received. -/
def Obligations.StepKeepsCopySound : Prop :=
  ∀ s t : State, s.BusSound → s.CopySound → step s = .next t → t.CopySound

/-- R22, R25, R26, R27: every step keeps levels within 0 to 15, the stack within 15 entries and the overflow count within
255. -/
def Obligations.StepKeepsSplitterSound : Prop :=
  ∀ s t : State, s.SplitterSound → step s = .next t → t.SplitterSound

/-- R35, R72, R114, R134, R158: every step keeps the roster free of duplicates and of senders above 7, the report list within 32
traps, the pending abort notices within 4, and own and box segment records within 96 each. -/
def Obligations.StepKeepsListsSound : Prop :=
  ∀ s t : State, step s = .next t → (s.RosterSound → t.RosterSound) ∧ (s.ListsSound → t.ListsSound) ∧
    (s.RecordsSound → t.RecordsSound)
end

