-- ==== Sys2Proof/Laws/State.lean ====
section
/-! SUPPORT. What each replacing operation of the state leaves in each block, so that no later proof unfolds a record update. -/

namespace Sys2Proof.Machine

section
variable (s : State) (x : Pins)

@[simp] theorem State.withPins_pins : (s.withPins x).pins = x := rfl
@[simp] theorem State.withPins_port : (s.withPins x).port = s.port := rfl
@[simp] theorem State.withPins_decoder : (s.withPins x).decoder = s.decoder := rfl
@[simp] theorem State.withPins_window : (s.withPins x).window = s.window := rfl
@[simp] theorem State.withPins_splitter : (s.withPins x).splitter = s.splitter := rfl
@[simp] theorem State.withPins_cartridge : (s.withPins x).cartridge = s.cartridge := rfl
@[simp] theorem State.withPins_shaper : (s.withPins x).shaper = s.shaper := rfl
@[simp] theorem State.withPins_measure : (s.withPins x).measure = s.measure := rfl
@[simp] theorem State.withPins_tally : (s.withPins x).tally = s.tally := rfl
@[simp] theorem State.withPins_placement : (s.withPins x).placement = s.placement := rfl
@[simp] theorem State.withPins_condition : (s.withPins x).condition = s.condition := rfl
@[simp] theorem State.withPins_choices : (s.withPins x).choices = s.choices := rfl
@[simp] theorem State.withPins_pending : (s.withPins x).pending = s.pending := rfl
@[simp] theorem State.withPins_self : s.withPins s.pins = s := rfl

end

section
variable (s : State) (x : BusPort)

@[simp] theorem State.withPort_pins : (s.withPort x).pins = s.pins := rfl
@[simp] theorem State.withPort_port : (s.withPort x).port = x := rfl
@[simp] theorem State.withPort_decoder : (s.withPort x).decoder = s.decoder := rfl
@[simp] theorem State.withPort_window : (s.withPort x).window = s.window := rfl
@[simp] theorem State.withPort_splitter : (s.withPort x).splitter = s.splitter := rfl
@[simp] theorem State.withPort_cartridge : (s.withPort x).cartridge = s.cartridge := rfl
@[simp] theorem State.withPort_shaper : (s.withPort x).shaper = s.shaper := rfl
@[simp] theorem State.withPort_measure : (s.withPort x).measure = s.measure := rfl
@[simp] theorem State.withPort_tally : (s.withPort x).tally = s.tally := rfl
@[simp] theorem State.withPort_placement : (s.withPort x).placement = s.placement := rfl
@[simp] theorem State.withPort_condition : (s.withPort x).condition = s.condition := rfl
@[simp] theorem State.withPort_choices : (s.withPort x).choices = s.choices := rfl
@[simp] theorem State.withPort_pending : (s.withPort x).pending = s.pending := rfl
@[simp] theorem State.withPort_self : s.withPort s.port = s := rfl

end

section
variable (s : State) (x : Decoder)

@[simp] theorem State.withDecoder_pins : (s.withDecoder x).pins = s.pins := rfl
@[simp] theorem State.withDecoder_port : (s.withDecoder x).port = s.port := rfl
@[simp] theorem State.withDecoder_decoder : (s.withDecoder x).decoder = x := rfl
@[simp] theorem State.withDecoder_window : (s.withDecoder x).window = s.window := rfl
@[simp] theorem State.withDecoder_splitter : (s.withDecoder x).splitter = s.splitter := rfl
@[simp] theorem State.withDecoder_cartridge : (s.withDecoder x).cartridge = s.cartridge := rfl
@[simp] theorem State.withDecoder_shaper : (s.withDecoder x).shaper = s.shaper := rfl
@[simp] theorem State.withDecoder_measure : (s.withDecoder x).measure = s.measure := rfl
@[simp] theorem State.withDecoder_tally : (s.withDecoder x).tally = s.tally := rfl
@[simp] theorem State.withDecoder_placement : (s.withDecoder x).placement = s.placement := rfl
@[simp] theorem State.withDecoder_condition : (s.withDecoder x).condition = s.condition := rfl
@[simp] theorem State.withDecoder_choices : (s.withDecoder x).choices = s.choices := rfl
@[simp] theorem State.withDecoder_pending : (s.withDecoder x).pending = s.pending := rfl
@[simp] theorem State.withDecoder_self : s.withDecoder s.decoder = s := rfl

end

section
variable (s : State) (x : Window)

@[simp] theorem State.withWindow_pins : (s.withWindow x).pins = s.pins := rfl
@[simp] theorem State.withWindow_port : (s.withWindow x).port = s.port := rfl
@[simp] theorem State.withWindow_decoder : (s.withWindow x).decoder = s.decoder := rfl
@[simp] theorem State.withWindow_window : (s.withWindow x).window = x := rfl
@[simp] theorem State.withWindow_splitter : (s.withWindow x).splitter = s.splitter := rfl
@[simp] theorem State.withWindow_cartridge : (s.withWindow x).cartridge = s.cartridge := rfl
@[simp] theorem State.withWindow_shaper : (s.withWindow x).shaper = s.shaper := rfl
@[simp] theorem State.withWindow_measure : (s.withWindow x).measure = s.measure := rfl
@[simp] theorem State.withWindow_tally : (s.withWindow x).tally = s.tally := rfl
@[simp] theorem State.withWindow_placement : (s.withWindow x).placement = s.placement := rfl
@[simp] theorem State.withWindow_condition : (s.withWindow x).condition = s.condition := rfl
@[simp] theorem State.withWindow_choices : (s.withWindow x).choices = s.choices := rfl
@[simp] theorem State.withWindow_pending : (s.withWindow x).pending = s.pending := rfl
@[simp] theorem State.withWindow_self : s.withWindow s.window = s := rfl

end

section
variable (s : State) (x : Splitter)

@[simp] theorem State.withSplitter_pins : (s.withSplitter x).pins = s.pins := rfl
@[simp] theorem State.withSplitter_port : (s.withSplitter x).port = s.port := rfl
@[simp] theorem State.withSplitter_decoder : (s.withSplitter x).decoder = s.decoder := rfl
@[simp] theorem State.withSplitter_window : (s.withSplitter x).window = s.window := rfl
@[simp] theorem State.withSplitter_splitter : (s.withSplitter x).splitter = x := rfl
@[simp] theorem State.withSplitter_cartridge : (s.withSplitter x).cartridge = s.cartridge := rfl
@[simp] theorem State.withSplitter_shaper : (s.withSplitter x).shaper = s.shaper := rfl
@[simp] theorem State.withSplitter_measure : (s.withSplitter x).measure = s.measure := rfl
@[simp] theorem State.withSplitter_tally : (s.withSplitter x).tally = s.tally := rfl
@[simp] theorem State.withSplitter_placement : (s.withSplitter x).placement = s.placement := rfl
@[simp] theorem State.withSplitter_condition : (s.withSplitter x).condition = s.condition := rfl
@[simp] theorem State.withSplitter_choices : (s.withSplitter x).choices = s.choices := rfl
@[simp] theorem State.withSplitter_pending : (s.withSplitter x).pending = s.pending := rfl
@[simp] theorem State.withSplitter_self : s.withSplitter s.splitter = s := rfl

end

section
variable (s : State) (x : CartridgePort)

@[simp] theorem State.withCartridge_pins : (s.withCartridge x).pins = s.pins := rfl
@[simp] theorem State.withCartridge_port : (s.withCartridge x).port = s.port := rfl
@[simp] theorem State.withCartridge_decoder : (s.withCartridge x).decoder = s.decoder := rfl
@[simp] theorem State.withCartridge_window : (s.withCartridge x).window = s.window := rfl
@[simp] theorem State.withCartridge_splitter : (s.withCartridge x).splitter = s.splitter := rfl
@[simp] theorem State.withCartridge_cartridge : (s.withCartridge x).cartridge = x := rfl
@[simp] theorem State.withCartridge_shaper : (s.withCartridge x).shaper = s.shaper := rfl
@[simp] theorem State.withCartridge_measure : (s.withCartridge x).measure = s.measure := rfl
@[simp] theorem State.withCartridge_tally : (s.withCartridge x).tally = s.tally := rfl
@[simp] theorem State.withCartridge_placement : (s.withCartridge x).placement = s.placement := rfl
@[simp] theorem State.withCartridge_condition : (s.withCartridge x).condition = s.condition := rfl
@[simp] theorem State.withCartridge_choices : (s.withCartridge x).choices = s.choices := rfl
@[simp] theorem State.withCartridge_pending : (s.withCartridge x).pending = s.pending := rfl
@[simp] theorem State.withCartridge_self : s.withCartridge s.cartridge = s := rfl

end

section
variable (s : State) (x : Shaper)

@[simp] theorem State.withShaper_pins : (s.withShaper x).pins = s.pins := rfl
@[simp] theorem State.withShaper_port : (s.withShaper x).port = s.port := rfl
@[simp] theorem State.withShaper_decoder : (s.withShaper x).decoder = s.decoder := rfl
@[simp] theorem State.withShaper_window : (s.withShaper x).window = s.window := rfl
@[simp] theorem State.withShaper_splitter : (s.withShaper x).splitter = s.splitter := rfl
@[simp] theorem State.withShaper_cartridge : (s.withShaper x).cartridge = s.cartridge := rfl
@[simp] theorem State.withShaper_shaper : (s.withShaper x).shaper = x := rfl
@[simp] theorem State.withShaper_measure : (s.withShaper x).measure = s.measure := rfl
@[simp] theorem State.withShaper_tally : (s.withShaper x).tally = s.tally := rfl
@[simp] theorem State.withShaper_placement : (s.withShaper x).placement = s.placement := rfl
@[simp] theorem State.withShaper_condition : (s.withShaper x).condition = s.condition := rfl
@[simp] theorem State.withShaper_choices : (s.withShaper x).choices = s.choices := rfl
@[simp] theorem State.withShaper_pending : (s.withShaper x).pending = s.pending := rfl
@[simp] theorem State.withShaper_self : s.withShaper s.shaper = s := rfl

end

section
variable (s : State) (x : MeasureUnit)

@[simp] theorem State.withMeasure_pins : (s.withMeasure x).pins = s.pins := rfl
@[simp] theorem State.withMeasure_port : (s.withMeasure x).port = s.port := rfl
@[simp] theorem State.withMeasure_decoder : (s.withMeasure x).decoder = s.decoder := rfl
@[simp] theorem State.withMeasure_window : (s.withMeasure x).window = s.window := rfl
@[simp] theorem State.withMeasure_splitter : (s.withMeasure x).splitter = s.splitter := rfl
@[simp] theorem State.withMeasure_cartridge : (s.withMeasure x).cartridge = s.cartridge := rfl
@[simp] theorem State.withMeasure_shaper : (s.withMeasure x).shaper = s.shaper := rfl
@[simp] theorem State.withMeasure_measure : (s.withMeasure x).measure = x := rfl
@[simp] theorem State.withMeasure_tally : (s.withMeasure x).tally = s.tally := rfl
@[simp] theorem State.withMeasure_placement : (s.withMeasure x).placement = s.placement := rfl
@[simp] theorem State.withMeasure_condition : (s.withMeasure x).condition = s.condition := rfl
@[simp] theorem State.withMeasure_choices : (s.withMeasure x).choices = s.choices := rfl
@[simp] theorem State.withMeasure_pending : (s.withMeasure x).pending = s.pending := rfl
@[simp] theorem State.withMeasure_self : s.withMeasure s.measure = s := rfl

end

section
variable (s : State) (x : TallyUnit)

@[simp] theorem State.withTally_pins : (s.withTally x).pins = s.pins := rfl
@[simp] theorem State.withTally_port : (s.withTally x).port = s.port := rfl
@[simp] theorem State.withTally_decoder : (s.withTally x).decoder = s.decoder := rfl
@[simp] theorem State.withTally_window : (s.withTally x).window = s.window := rfl
@[simp] theorem State.withTally_splitter : (s.withTally x).splitter = s.splitter := rfl
@[simp] theorem State.withTally_cartridge : (s.withTally x).cartridge = s.cartridge := rfl
@[simp] theorem State.withTally_shaper : (s.withTally x).shaper = s.shaper := rfl
@[simp] theorem State.withTally_measure : (s.withTally x).measure = s.measure := rfl
@[simp] theorem State.withTally_tally : (s.withTally x).tally = x := rfl
@[simp] theorem State.withTally_placement : (s.withTally x).placement = s.placement := rfl
@[simp] theorem State.withTally_condition : (s.withTally x).condition = s.condition := rfl
@[simp] theorem State.withTally_choices : (s.withTally x).choices = s.choices := rfl
@[simp] theorem State.withTally_pending : (s.withTally x).pending = s.pending := rfl
@[simp] theorem State.withTally_self : s.withTally s.tally = s := rfl

end

section
variable (s : State) (x : PlacementUnit)

@[simp] theorem State.withPlacement_pins : (s.withPlacement x).pins = s.pins := rfl
@[simp] theorem State.withPlacement_port : (s.withPlacement x).port = s.port := rfl
@[simp] theorem State.withPlacement_decoder : (s.withPlacement x).decoder = s.decoder := rfl
@[simp] theorem State.withPlacement_window : (s.withPlacement x).window = s.window := rfl
@[simp] theorem State.withPlacement_splitter : (s.withPlacement x).splitter = s.splitter := rfl
@[simp] theorem State.withPlacement_cartridge : (s.withPlacement x).cartridge = s.cartridge := rfl
@[simp] theorem State.withPlacement_shaper : (s.withPlacement x).shaper = s.shaper := rfl
@[simp] theorem State.withPlacement_measure : (s.withPlacement x).measure = s.measure := rfl
@[simp] theorem State.withPlacement_tally : (s.withPlacement x).tally = s.tally := rfl
@[simp] theorem State.withPlacement_placement : (s.withPlacement x).placement = x := rfl
@[simp] theorem State.withPlacement_condition : (s.withPlacement x).condition = s.condition := rfl
@[simp] theorem State.withPlacement_choices : (s.withPlacement x).choices = s.choices := rfl
@[simp] theorem State.withPlacement_pending : (s.withPlacement x).pending = s.pending := rfl
@[simp] theorem State.withPlacement_self : s.withPlacement s.placement = s := rfl

end

section
variable (s : State) (x : ConditionUnit)

@[simp] theorem State.withCondition_pins : (s.withCondition x).pins = s.pins := rfl
@[simp] theorem State.withCondition_port : (s.withCondition x).port = s.port := rfl
@[simp] theorem State.withCondition_decoder : (s.withCondition x).decoder = s.decoder := rfl
@[simp] theorem State.withCondition_window : (s.withCondition x).window = s.window := rfl
@[simp] theorem State.withCondition_splitter : (s.withCondition x).splitter = s.splitter := rfl
@[simp] theorem State.withCondition_cartridge : (s.withCondition x).cartridge = s.cartridge := rfl
@[simp] theorem State.withCondition_shaper : (s.withCondition x).shaper = s.shaper := rfl
@[simp] theorem State.withCondition_measure : (s.withCondition x).measure = s.measure := rfl
@[simp] theorem State.withCondition_tally : (s.withCondition x).tally = s.tally := rfl
@[simp] theorem State.withCondition_placement : (s.withCondition x).placement = s.placement := rfl
@[simp] theorem State.withCondition_condition : (s.withCondition x).condition = x := rfl
@[simp] theorem State.withCondition_choices : (s.withCondition x).choices = s.choices := rfl
@[simp] theorem State.withCondition_pending : (s.withCondition x).pending = s.pending := rfl
@[simp] theorem State.withCondition_self : s.withCondition s.condition = s := rfl

end

section
variable (s : State) (x : Nat)

@[simp] theorem State.withChoices_pins : (s.withChoices x).pins = s.pins := rfl
@[simp] theorem State.withChoices_port : (s.withChoices x).port = s.port := rfl
@[simp] theorem State.withChoices_decoder : (s.withChoices x).decoder = s.decoder := rfl
@[simp] theorem State.withChoices_window : (s.withChoices x).window = s.window := rfl
@[simp] theorem State.withChoices_splitter : (s.withChoices x).splitter = s.splitter := rfl
@[simp] theorem State.withChoices_cartridge : (s.withChoices x).cartridge = s.cartridge := rfl
@[simp] theorem State.withChoices_shaper : (s.withChoices x).shaper = s.shaper := rfl
@[simp] theorem State.withChoices_measure : (s.withChoices x).measure = s.measure := rfl
@[simp] theorem State.withChoices_tally : (s.withChoices x).tally = s.tally := rfl
@[simp] theorem State.withChoices_placement : (s.withChoices x).placement = s.placement := rfl
@[simp] theorem State.withChoices_condition : (s.withChoices x).condition = s.condition := rfl
@[simp] theorem State.withChoices_choices : (s.withChoices x).choices = x := rfl
@[simp] theorem State.withChoices_pending : (s.withChoices x).pending = s.pending := rfl
@[simp] theorem State.withChoices_self : s.withChoices s.choices = s := rfl

end

section
variable (s : State) (x : List Instr)

@[simp] theorem State.withPending_pins : (s.withPending x).pins = s.pins := rfl
@[simp] theorem State.withPending_port : (s.withPending x).port = s.port := rfl
@[simp] theorem State.withPending_decoder : (s.withPending x).decoder = s.decoder := rfl
@[simp] theorem State.withPending_window : (s.withPending x).window = s.window := rfl
@[simp] theorem State.withPending_splitter : (s.withPending x).splitter = s.splitter := rfl
@[simp] theorem State.withPending_cartridge : (s.withPending x).cartridge = s.cartridge := rfl
@[simp] theorem State.withPending_shaper : (s.withPending x).shaper = s.shaper := rfl
@[simp] theorem State.withPending_measure : (s.withPending x).measure = s.measure := rfl
@[simp] theorem State.withPending_tally : (s.withPending x).tally = s.tally := rfl
@[simp] theorem State.withPending_placement : (s.withPending x).placement = s.placement := rfl
@[simp] theorem State.withPending_condition : (s.withPending x).condition = s.condition := rfl
@[simp] theorem State.withPending_choices : (s.withPending x).choices = s.choices := rfl
@[simp] theorem State.withPending_pending : (s.withPending x).pending = x := rfl
@[simp] theorem State.withPending_self : s.withPending s.pending = s := rfl

end

end Sys2Proof.Machine
end

