-- ==== Sys2Proof/Laws/Fixed.lean ====
section
/-! SUPPORT. What the shared operations never touch: the pins, the copy decoder, the queue of commands, the station number and
all that the profile gives; and, but for the operations that free copy, the copy window. -/

namespace Sys2Proof.Machine

/-- What only start-up, power and the reset line write, with the decoder and the queue of commands. -/
structure Fixed where
  pins        : Pins
  decoder     : Decoder
  pending     : List Instr
  station     : Nat
  levels      : Option Levels
  profileCopy : List CartWord
  directory   : List Nat
  size        : Nat
  claims      : List Claim
  fallback    : Bool
  units       : Nat × Nat × Nat × Nat
  response    : HoldResponse

def State.fixed (s : State) : Fixed :=
  ⟨s.pins, s.decoder, s.pending, s.port.station, s.port.levels, s.cartridge.profileCopy, s.cartridge.directory,
    s.cartridge.size, s.splitter.claims, s.splitter.fallback,
    (s.measure.natural, s.measure.minimum, s.measure.maximum, s.measure.multiple), s.placement.response⟩

/-- The fixed part together with the copy window. -/
def State.calm (s : State) : Fixed × Window := (s.fixed, s.window)

theorem fixed_of_calm {s t : State} (h : t.calm = s.calm) : t.fixed = s.fixed := congrArg Prod.fst h

theorem window_of_calm {s t : State} (h : t.calm = s.calm) : t.window = s.window := congrArg Prod.snd h

/-- A fold keeps what its step keeps. -/
theorem foldl_keeps {α β : Type} (p : State → β) (f : State → α → State) (h : ∀ s x, p (f s x) = p s) (l : List α) (s : State) :
    p (l.foldl f s) = p s := by
  induction l generalizing s with
  | nil => rfl
  | cons x l ih => exact (ih (f s x)).trans (h s x)

/-! ### Blocks that a shared operation may replace freely -/

@[simp] theorem withTally_calm (s : State) (x : TallyUnit) : (s.withTally x).calm = s.calm := rfl
@[simp] theorem withCondition_calm (s : State) (x : ConditionUnit) : (s.withCondition x).calm = s.calm := rfl
@[simp] theorem withShaper_calm (s : State) (x : Shaper) : (s.withShaper x).calm = s.calm := rfl
@[simp] theorem withChoices_calm (s : State) (x : Nat) : (s.withChoices x).calm = s.calm := rfl
@[simp] theorem withWindow_fixed (s : State) (x : Window) : (s.withWindow x).fixed = s.fixed := rfl

/-! ### Queues, notices and conditions -/

theorem await_fixed (p : BusPort) (who : Producer) (f : Frame) :
    (p.await who f).station = p.station ∧ (p.await who f).levels = p.levels := by
  unfold BusPort.await; split <;> exact ⟨rfl, rfl⟩

@[simp] theorem handOver_calm (who : Producer) (f : Frame) (s : State) : (handOver who f s).calm = s.calm := by
  unfold handOver
  split
  · split
    · simp [State.calm, State.fixed, await_fixed]
    · split
      · rfl
      · simp [State.calm, State.fixed, await_fixed]
  · rfl

@[simp] theorem sendNotice_calm (n : Notice) (s : State) : (sendNotice n s).calm = s.calm := handOver_calm ..

@[simp] theorem sendAbortNotice_calm (n : Notice) (a : CopyIndex) (s : State) : (sendAbortNotice n a s).calm = s.calm := by
  unfold sendAbortNotice
  split
  · exact sendNotice_calm ..
  · split <;> rfl

@[simp] theorem releasePendingNotices_calm (s : State) : (releasePendingNotices s).calm = s.calm :=
  (foldl_keeps State.calm _ (fun _ _ => sendAbortNotice_calm ..) _ _).trans rfl

@[simp] theorem raiseTrap_calm (t : Trap) (s : State) : (raiseTrap t s).calm = s.calm := by
  unfold raiseTrap
  split
  · exact sendNotice_calm ..
  · split
    · exact sendNotice_calm ..
    · split <;> rfl

@[simp] theorem reportTraps_calm (n : LineNumber) (h : CopyIndex → Bool) (s : State) : (reportTraps n h s).calm = s.calm :=
  (foldl_keeps State.calm _ (fun _ _ => sendNotice_calm ..) _ _).trans rfl

@[simp] theorem raiseNamedTrap_calm (t : Trap) (n : LineNumber) (s : State) : (raiseNamedTrap t n s).calm = s.calm := by
  unfold raiseNamedTrap; split
  · exact sendNotice_calm ..
  · rfl

@[simp] theorem sendRecall_calm (c : FrameClass) (r : LineRef) (k : CondCode) (s : State) :
    (sendRecall c r k s).calm = s.calm := by
  unfold sendRecall; split
  · rfl
  · exact handOver_calm ..

theorem drop_units (u : MeasureUnit) (i : CopyIndex) :
    ((u.drop i).natural, (u.drop i).minimum, (u.drop i).maximum, (u.drop i).multiple)
      = (u.natural, u.minimum, u.maximum, u.multiple) := by
  unfold MeasureUnit.drop; split <;> rfl

@[simp] theorem abandonShaping_calm (s : State) : (abandonShaping s).calm = s.calm := by
  unfold abandonShaping
  split
  · rfl
  · simp only [State.calm, State.fixed, CartridgePort.abandon, drop_units]

@[simp] theorem abandonBox_calm (s : State) : (abandonBox s).calm = s.calm := by
  unfold abandonBox
  cases s.shaper.boxOp <;> simp only [State.calm, State.fixed, CartridgePort.abandon, drop_units]

theorem abandonBox_port (s : State) : (abandonBox s).port = s.port := rfl

@[simp] theorem withdraw_calm (c : Cond) (n : Nat) (s : State) : (withdraw c n s).calm = s.calm := by
  have h : (abandonBox (abandonShaping s)).calm = s.calm := by simp
  rw [← h]
  unfold withdraw
  simp only [State.calm, State.fixed]
  split <;> rfl

@[simp] theorem enterWithdrawn_calm (s : State) : (enterWithdrawn s).calm = s.calm := rfl

@[simp] theorem raiseFault_calm (c : Cond) (s : State) : (raiseFault c s).calm = s.calm := by
  unfold raiseFault; split
  · exact sendNotice_calm ..
  · refine (sendNotice_calm ..).trans ?_
    split
    · exact sendRecall_calm ..
    · rfl

@[simp] theorem raiseAbort_calm (c : Cond) (s : State) : (raiseAbort c s).calm = s.calm := by
  unfold raiseAbort; split
  · exact sendAbortNotice_calm ..
  · refine (sendAbortNotice_calm ..).trans ?_
    split
    · rfl
    · exact sendRecall_calm ..

@[simp] theorem advanceChoices_calm (r : Option LineRef) (s : State) : (advanceChoices r s).calm = s.calm := by
  unfold advanceChoices; split <;> rfl

/-- Raising a condition touches neither the fixed part nor the copy window. -/
@[simp] theorem raise_calm (c : Cond) (s : State) : (raise c s).calm = s.calm := by
  unfold raise
  repeat' split
  all_goals simp

/-! ### The shaper, the cutter and the placement unit -/

@[simp] theorem checkStoreFull_calm (i : CopyIndex) (n : Nat) (s : State) : (checkStoreFull i n s).calm = s.calm := by
  unfold checkStoreFull; split
  · exact raise_calm ..
  · rfl

@[simp] theorem checkWaitingStore_calm (s : State) : (checkWaitingStore s).calm = s.calm := by
  unfold checkWaitingStore
  dsimp only
  repeat' split
  all_goals simp

theorem startNext_fixed (p : CartridgePort) :
    p.startNext.profileCopy = p.profileCopy ∧ p.startNext.directory = p.directory ∧ p.startNext.size = p.size := by
  unfold CartridgePort.startNext; split <;> exact ⟨rfl, rfl, rfl⟩

@[simp] theorem startNextRead_calm (s : State) : (startNextRead s).calm = s.calm := by
  simp [startNextRead, State.calm, State.fixed, startNext_fixed]

@[simp] theorem startMeasure_calm (s : State) : (startMeasure s).calm = s.calm := by
  unfold startMeasure
  repeat' split
  all_goals rfl

@[simp] theorem restartShaping_calm (s : State) : (restartShaping s).calm = s.calm := by
  unfold restartShaping
  split
  · rfl
  · simp only [State.calm, State.fixed, CartridgePort.abandon, drop_units]

theorem markUnusable_calm (s : State) (k : Nat) : (s.withCartridge (s.cartridge.markUnusable k)).calm = s.calm := rfl

@[simp] theorem shapingViolation_calm (b : CopyIndex) (k : Nat) (i : CopyIndex) (s : State) :
    (shapingViolation b k i s).calm = s.calm := by
  unfold shapingViolation
  simp only [restartShaping_calm]
  split <;> simp [markUnusable_calm]

@[simp] theorem resumeShaping_calm (n : Nat) (s : State) : (resumeShaping n s).calm = s.calm := by
  induction n generalizing s with
  | zero => rfl
  | succ n ih =>
    unfold resumeShaping
    split
    · rfl
    · exact (ih _).trans (shapingViolation_calm ..)
    · exact raise_calm ..
    · rfl
    · rfl

@[simp] theorem resumeBox_calm (s : State) : (resumeBox s).calm = s.calm := by
  unfold resumeBox
  split
  · rfl
  · simp only [raise_calm]
    split <;> simp [markUnusable_calm]
  · exact raise_calm ..
  · rfl
  · rfl

@[simp] theorem beginShaping_calm (r : SegRecord) (s : State) : (beginShaping r s).calm = s.calm :=
  (resumeShaping_calm ..).trans rfl

@[simp] theorem beginBox_calm (b : BoxRecord) (s : State) : (beginBox b s).calm = s.calm := (resumeBox_calm _).trans rfl

@[simp] theorem grantShaping_calm (s : State) : (grantShaping s).calm = s.calm := by
  unfold grantShaping
  repeat' split
  all_goals simp

@[simp] theorem grantBox_calm (s : State) : (grantBox s).calm = s.calm := by
  unfold grantBox
  repeat' split
  all_goals simp

@[simp] theorem grantStore_calm (s : State) : (grantStore s).calm = s.calm := by
  unfold grantStore
  repeat' split
  all_goals simp

@[simp] theorem startShaping_calm (s : State) : (startShaping s).calm = s.calm := by
  unfold startShaping
  repeat' split
  all_goals simp

@[simp] theorem startBox_calm (s : State) : (startBox s).calm = s.calm := by
  unfold startBox
  dsimp only
  repeat' split
  all_goals simp

@[simp] theorem publishRecord_calm (r : SegRecord) (s : State) : (publishRecord r s).calm = s.calm :=
  (withShaper_calm ..).trans (handOver_calm ..)

@[simp] theorem publishBox_calm (b : BoxRecord) (s : State) : (publishBox b s).calm = s.calm :=
  (withShaper_calm ..).trans (handOver_calm ..)

@[simp] theorem raiseMisses_calm (l : List CopyIndex) (s : State) : (raiseMisses l s).calm = s.calm :=
  foldl_keeps State.calm _ (fun _ _ => raise_calm ..) _ _

@[simp] theorem completeShaping_calm (s : State) : (completeShaping s).calm = s.calm := by
  unfold completeShaping
  repeat' split
  all_goals simp
  all_goals rfl

@[simp] theorem completeBox_calm (s : State) : (completeBox s).calm = s.calm := by
  unfold completeBox
  repeat' split
  all_goals simp
  all_goals rfl

@[simp] theorem placeRemainder_calm (s : State) : (placeRemainder s).calm = s.calm := by
  unfold placeRemainder
  repeat' split
  all_goals rfl

@[simp] theorem cutSegment_calm (n : LineNumber) (i : CopyIndex) (o : TallyOpp) (s : State) :
    (cutSegment n i o s).calm = s.calm := by
  unfold cutSegment
  repeat' split
  all_goals simp

@[simp] theorem runCutter_calm (n : Nat) (s : State) : (runCutter n s).calm = s.calm := by
  induction n generalizing s with
  | zero => rfl
  | succ n ih =>
    unfold runCutter
    dsimp only
    repeat' split
    · exact (ih _).trans rfl
    · rfl
    · exact (ih _).trans rfl
    · rfl
    · rfl

@[simp] theorem resumeCutting_calm (s : State) : (resumeCutting s).calm = s.calm := runCutter_calm ..

@[simp] theorem pumpFrames_calm (n : Nat) (s : State) : (pumpFrames n s).calm = s.calm := by
  induction n generalizing s with
  | zero => rfl
  | succ n ih =>
    unfold pumpFrames
    repeat' split
    · rfl
    · exact (ih _).trans ((handOver_calm ..).trans rfl)
    · rfl

@[simp] theorem pump_calm (s : State) : (pump s).calm = s.calm := pumpFrames_calm ..

@[simp] theorem enterWaiting_calm (w : WaitingFrame) (s : State) : (enterWaiting w s).calm = s.calm := by
  unfold enterWaiting
  repeat' split
  · rfl
  · rfl
  · rfl
  · exact (pump_calm _).trans rfl
  · rfl
  · rfl
  · rfl

@[simp] theorem settleFrames_calm (n : Nat) (s : State) : (settleFrames n s).calm = s.calm := by
  induction n generalizing s with
  | zero => rfl
  | succ n ih =>
    unfold settleFrames
    split
    · exact (ih _).trans (enterWaiting_calm ..)
    · rfl

@[simp] theorem settleSlots_calm (s : State) : (settleSlots s).calm = s.calm := settleFrames_calm ..

@[simp] theorem settle_calm (s : State) : (settle s).calm = s.calm := by simp [settle]

/-- Whatever a freeing sets going touches neither the fixed part nor the copy window. -/
@[simp] theorem finish_calm (s : State) : (finish s).calm = s.calm := by
  unfold finish; split <;> simp

/-! ### The tally unit -/

theorem trySendLine_calm (n : LineNumber) (s : State) : (trySendLine n s).calm = s.calm := by
  unfold trySendLine PlacementUnit.endFinishing
  simp only [State.calm, State.fixed]
  repeat' split
  all_goals rfl

@[simp] theorem requeueHeldMuster_calm (s : State) : (requeueHeldMuster s).calm = s.calm := by
  unfold requeueHeldMuster; split
  · exact (handOver_calm ..).trans rfl
  · rfl

@[simp] theorem queueMuster_calm (s : State) : (queueMuster s).calm = s.calm := (handOver_calm ..).trans rfl

@[simp] theorem openLine_calm (r : LineRecord) (s : State) : (openLine r s).calm = s.calm := by
  unfold openLine
  split
  · exact (requeueHeldMuster_calm _).trans rfl
  · rfl

@[simp] theorem checkGapMark_calm (s : State) : (checkGapMark s).calm = s.calm := by
  unfold checkGapMark
  repeat' split
  · exact (foldl_keeps State.calm _ (fun _ _ => raise_calm ..) _ _).trans rfl
  · rfl
  · rfl

@[simp] theorem raiseTallyFull_calm (r : LineRecord) (i : CopyIndex) (s : State) : (raiseTallyFull r i s).calm = s.calm :=
  raise_calm ..

@[simp] theorem enterSegment_calm (r : LineRecord) (g : SegItem) (s : State) : (enterSegment r g s).calm = s.calm := by
  unfold enterSegment
  repeat' split
  all_goals simp

@[simp] theorem replaceSegments_calm (r : LineRecord) (g : SegItem) (l : List TallyItem) (s : State) :
    (replaceSegments r g l s).calm = s.calm := by
  unfold replaceSegments
  split <;> rfl

@[simp] theorem compareSegment_calm (r : LineRecord) (g : SegItem) (s : State) : (compareSegment r g s).calm = s.calm := by
  unfold compareSegment
  dsimp only
  split
  · rfl
  · exact raise_calm ..

@[simp] theorem takeMeasure_calm (r : LineRecord) (g : SegItem) (s : State) : (takeMeasure r g s).calm = s.calm := by
  unfold takeMeasure
  dsimp only
  split
  · split
    · exact raise_calm ..
    · rfl
  · split
    · exact enterSegment_calm ..
    · split
      · exact replaceSegments_calm ..
      · exact compareSegment_calm ..

@[simp] theorem runScan_calm (s : State) : (runScan s).calm = s.calm := by
  unfold runScan
  split
  · dsimp only
    split
    · exact (raiseTallyFull_calm ..).trans rfl
    · rfl
  · rfl

@[simp] theorem compareVerdict_calm (r : LineRecord) (n : Nat) (f : Figures) (s : State) :
    (compareVerdict r n f s).calm = s.calm := by
  unfold compareVerdict; split <;> simp

@[simp] theorem raiseOverset_calm (r : LineRecord) (b : Break) (s : State) : (raiseOverset r b s).calm = s.calm := by
  unfold raiseOverset; split <;> simp

@[simp] theorem raiseLoose_calm (r : LineRecord) (t : Setting) (s : State) : (raiseLoose r t s).calm = s.calm := by
  unfold raiseLoose; split <;> simp

@[simp] theorem placeDecided_calm (r : LineRecord) (t : Setting) (s : State) : (placeDecided r t s).calm = s.calm := rfl

@[simp] theorem cutAtBreak_calm (r : LineRecord) (b : Break) (s : State) : (cutAtBreak r b s).calm = s.calm := by
  unfold cutAtBreak
  repeat' split
  all_goals simp

/-- A decision touches neither the fixed part nor the copy window. -/
@[simp] theorem decideLine_calm (r : LineRecord) (p : LineParams) (s : State) : (decideLine r p s).calm = s.calm := by
  unfold decideLine
  dsimp only
  refine (apply_ite State.calm ..).trans ?_
  rw [checkWaitingStore_calm, ite_self]
  refine (foldl_keeps State.calm _ (fun _ _ => compareVerdict_calm ..) _ _).trans ?_
  refine (foldl_keeps State.calm _ (fun _ _ => raise_calm ..) _ _).trans ?_
  simp

@[simp] theorem decideIfDue_calm (s : State) : (decideIfDue s).calm = s.calm := by
  unfold decideIfDue
  repeat' split
  all_goals simp

@[simp] theorem tallyRound_calm (s : State) : (tallyRound s).calm = s.calm := by simp [tallyRound]

/-- The scan and the decisions it leads to touch neither the fixed part nor the copy window. -/
@[simp] theorem settleTally_calm (s : State) : (settleTally s).calm = s.calm := by
  unfold settleTally
  dsimp only
  repeat' split
  all_goals simp

theorem ownVerdictCarried_calm (r : LineRecord) (s : State) : (ownVerdictCarried r s).calm = s.calm := by
  unfold ownVerdictCarried
  simp only [reportTraps_calm, trySendLine_calm]
  rfl

@[simp] theorem takeVerdict_calm (n : Nat) (m : VerdictMsg) (s : State) : (takeVerdict n m s).calm = s.calm := by
  unfold takeVerdict matchVerdict compareTaken
  dsimp only
  repeat' split
  all_goals simp [ownVerdictCarried_calm]

/-! ### Operations that free copy -/

@[simp] theorem freeSegments_calm (e : CopyIndex) (s : State) : (freeSegments e s).calm = s.calm := by
  unfold freeSegments
  dsimp only
  simp only [withShaper_calm]
  repeat' split
  all_goals simp

@[simp] theorem killSegments_calm (e : CopyIndex) (s : State) : (killSegments e s).calm = s.calm := by
  unfold killSegments
  dsimp only
  simp only [withShaper_calm]
  repeat' split
  all_goals simp

@[simp] theorem undoCuts_calm (n : LineNumber) (s : State) : (undoCuts n s).calm = s.calm := by
  unfold undoCuts
  dsimp only
  simp only [withShaper_calm]
  repeat' split
  all_goals simp

theorem release_response (u : PlacementUnit) (w : LineNumber → Bool) : (u.release w).response = u.response := by
  unfold PlacementUnit.release PlacementUnit.endFinishing
  repeat' split
  all_goals rfl

@[simp] theorem settleFreed_calm (s : State) : (settleFreed s).calm = s.calm := by
  unfold settleFreed
  split <;> simp

/-- Freeing a line touches nothing of the fixed part; the copy before its end index leaves the window. -/
theorem takeLine_fixed (s : State) (r : LineRecord) : (takeLine s r).fixed = s.fixed := by
  have h (t : State) :
      (reportTraps r.number r.spans (settleFreed (freeSegments (r.endIdx.getD r.start) t))).fixed = t.fixed :=
    fixed_of_calm (by simp)
  refine (h _).trans ?_
  simp only [State.fixed, release_response]
  rfl

end Sys2Proof.Machine
end

