-- ==== Sys2Proof/Laws/Ops.lean ====
section
/-! SUPPORT. What the shared operations can do, said once: handing a frame to the port, taking the head of the receive queue,
settling a quiet state, and the copy window's operations. -/

namespace Sys2Proof.Machine

/-! ### The port -/

/-- Handing a frame over leaves the state, makes the frame wait, or puts it in a free slot. -/
theorem handOver_cases (who : Producer) (f : Frame) (s : State) :
    handOver who f s = s ∨ handOver who f s = s.withPort (s.port.await who f) ∨
      ∃ u, s.port.slotFor f.cls = some u ∧
        handOver who f s = s.withPort (s.port.enqueue f u (s.placement.entryMark f)) := by
  unfold handOver
  split
  · split
    · exact .inr (.inl rfl)
    · split
      next u h => exact .inr (.inr ⟨u, h, rfl⟩)
      · exact .inr (.inl rfl)
  · exact .inl rfl

/-- A frame that the port accepts and has a slot for enters the queue. -/
theorem handOver_enters {who : Producer} {f : Frame} {s : State} {u : Bool} (ha : s.accepts = true)
    (hs : s.port.stalled who = false) (hf : s.port.slotFor f.cls = some u) :
    handOver who f s = s.withPort (s.port.enqueue f u (s.placement.entryMark f)) := by
  simp [handOver, ha, hs, hf]

theorem txInsert_perm (t : TxFrame) (l : List TxFrame) : (txInsert t l).Perm (t :: l) := by
  induction l with
  | nil => exact .refl _
  | cons x l ih =>
    unfold txInsert
    split
    · exact .refl _
    · exact (ih.cons x).trans (.swap t x l)

theorem slotFor_ordinary {p : BusPort} {c : FrameClass} (h : p.slotFor c = some false) : p.ordinaryUsed < ordinarySlots := by
  unfold BusPort.slotFor at h
  split at h
  · cases h
  · split at h
    · assumption
    · cases h

theorem slotFor_urgent {p : BusPort} {c : FrameClass} (h : p.slotFor c = some true) :
    c.mayBeUrgent = true ∧ p.urgentUsed < urgentSlots := by
  unfold BusPort.slotFor at h
  split at h
  next hc => simpa using hc
  · split at h <;> cases h

/-- The slots used once a frame has entered. -/
theorem enqueue_used (p : BusPort) (f : Frame) (u m : Bool) :
    (p.enqueue f u m).ordinaryUsed = p.ordinaryUsed + (if u then 0 else 1) ∧
      (p.enqueue f u m).urgentUsed = p.urgentUsed + (if u then 1 else 0) := by
  unfold BusPort.enqueue BusPort.ordinaryUsed BusPort.urgentUsed
  rw [(txInsert_perm _ _).countP_eq, (txInsert_perm _ _).countP_eq]
  cases u <;> simp

/-! ### The head of the receive queue -/

/-- The head of the receive queue is handled in full when it is of the class and the station takes it. -/
theorem takeHead_handles {c : FrameClass} {act : Frame → State → State} {s : State} {f : Frame} {rest : List Frame}
    (hr : s.port.rx = f :: rest) (hc : f.cls = c) (ht : s.takes = true) :
    takeHead c act s = finish (act f (s.withPort { s.port with rx := rest })) := by
  simp [takeHead, hr, hc, ht]

/-- A head of another class stays. -/
theorem takeHead_other {c : FrameClass} {act : Frame → State → State} {s : State} {f : Frame} {rest : List Frame}
    (hr : s.port.rx = f :: rest) (hc : f.cls ≠ c) : takeHead c act s = s := by
  simp [takeHead, hr, hc]

/-! ### A quiet state -/

/-- What a quiet state lacks, one fact for each kind of outstanding work. -/
theorem quiet_parts {s : State} (h : s.quiet = true) :
    (∀ r ∈ s.shaper.records, r.state ≠ .storeWait) ∧ (∀ b ∈ s.shaper.boxes, b.state ≠ .storeWait) ∧
      s.shaper.remainder = none ∧ s.shaper.op = none ∧ s.shaper.boxOp = none ∧ s.port.waiting = [] ∧
      s.cartridge.waiting = [] ∧ s.placement.nextLine? = none ∧
      (s.splitter.cutting = false ∨
        (s.window.holds s.splitter.cutPoint = false ∧ s.window.behind s.splitter.cutPoint = false)) ∧
      s.placement.unreported = [] := by
  simp only [State.quiet, State.nothingWaits, State.noStoreWait, Bool.and_eq_true, List.all_eq_true, bne_iff_ne,
    Option.isNone_iff_eq_none, List.isEmpty_iff, Bool.or_eq_true, Bool.not_eq_true'] at h
  obtain ⟨⟨⟨⟨⟨⟨⟨⟨h3, h6⟩, h7⟩, h8⟩, h9⟩, h1, h2⟩, h4⟩, h5⟩, h10⟩ := h
  exact ⟨h1, h2, h3, h4, h5, h6, h7, h8, h9, h10⟩

theorem placeRemainder_none {s : State} (h : s.shaper.remainder = none) : placeRemainder s = s := by
  simp [placeRemainder, h]

theorem item_none_of_not_held {w : Window} {i : CopyIndex} (h : w.holds i = false) : w.item? i = none := by
  have h' : ¬ distance w.oldest i < w.items.length := of_decide_eq_false h
  exact List.getElem?_eq_none (Nat.le_of_not_lt h')

theorem resumeCutting_done {s : State}
    (h : s.splitter.cutting = false ∨
      (s.window.holds s.splitter.cutPoint = false ∧ s.window.behind s.splitter.cutPoint = false)) :
    resumeCutting s = s := by
  unfold resumeCutting runCutter
  rcases h with h | ⟨h1, h2⟩
  · simp [h]
  · simp [item_none_of_not_held h1, h2]

theorem grantStore_idle {s : State} (h1 : ∀ r ∈ s.shaper.records, r.state ≠ .storeWait)
    (h2 : ∀ b ∈ s.shaper.boxes, b.state ≠ .storeWait) : grantStore s = s := by
  have e1 : s.shaper.records.find? (fun r => r.state == .storeWait) = none := by simpa using h1
  have e2 : s.shaper.boxes.find? (fun b => b.state == .storeWait) = none := by simpa using h2
  have e3 : s.shaper.records.any (fun r => r.state == .storeWait) = false := by simpa using h1
  have g1 : grantShaping s = s := by simp [grantShaping, e1]
  simp [grantStore, e3, g1, grantBox, e2]

theorem settleSlots_none {s : State} (h : s.port.waiting = []) : settleSlots s = s := by
  simp [settleSlots, settleFrames, ordinarySlots, urgentSlots, BusPort.nextWaiting, h, oldestWaiting, lowestWord]

theorem startMeasure_idle {s : State} (h1 : s.shaper.op = none) (h2 : s.shaper.boxOp = none) : startMeasure s = s := by
  simp [startMeasure, State.shapingProgress, State.boxProgress, h1, h2]

theorem startNextRead_none {s : State} (h : s.cartridge.waiting = []) : startNextRead s = s := by
  have : s.cartridge.startNext = s.cartridge := by
    unfold CartridgePort.startNext; rw [h]; split <;> simp_all
  simp [startNextRead, this]

theorem pump_none {s : State} (h : s.placement.nextLine? = none) : pump s = s := by
  unfold pump
  generalize (s.placement.lines.map (·.entryCount)).sum = n
  cases n with
  | zero => rfl
  | succ n => simp [pumpFrames, h]

/-- In a quiet state nothing that a freeing lets go on waits. -/
theorem settle_quiet {s : State} (h : s.quiet = true) : settle s = s := by
  obtain ⟨h1, h2, h3, h4, h5, h6, h7, -, h9, -⟩ := quiet_parts h
  unfold settle
  rw [settleSlots_none h6, placeRemainder_none h3, resumeCutting_done h9, grantStore_idle h1 h2, startMeasure_idle h4 h5,
    startNextRead_none h7]

/-- In a quiet state an event sets nothing else going. -/
theorem finish_quiet {s : State} (h : s.quiet = true) : finish s = s := by
  obtain ⟨-, -, -, -, -, -, h7, h8, -, -⟩ := quiet_parts h
  unfold finish
  rw [settle_quiet h, pump_none h8, startNextRead_none h7, ite_self]

/-- In a quiet state a freeing sets nothing going. -/
theorem settleFreed_quiet {s : State} (h : s.quiet = true) : settleFreed s = s := by
  unfold settleFreed
  rw [settle_quiet h, ite_self]

/-! ### The first element of a list -/

theorem changeFirst_length {α : Type} (p : α → Bool) (f : α → α) (l : List α) : (changeFirst p f l).length = l.length := by
  induction l with
  | nil => rfl
  | cons x l ih => unfold changeFirst; split <;> simp [ih]

/-- An element of the list after is one of the list before, or the rewritten one. -/
theorem mem_changeFirst {α : Type} {p : α → Bool} {f : α → α} {l : List α} {x : α} (h : x ∈ changeFirst p f l) :
    x ∈ l ∨ ∃ y ∈ l, p y = true ∧ x = f y := by
  induction l with
  | nil => cases h
  | cons y l ih =>
    unfold changeFirst at h
    split at h
    next hy =>
      rcases List.mem_cons.mp h with rfl | h
      · exact .inr ⟨y, List.mem_cons_self, hy, rfl⟩
      · exact .inl (List.mem_cons_of_mem _ h)
    · rcases List.mem_cons.mp h with rfl | h
      · exact .inl List.mem_cons_self
      · rcases ih h with h | ⟨z, hz, hp, rfl⟩
        · exact .inl (List.mem_cons_of_mem _ h)
        · exact .inr ⟨z, List.mem_cons_of_mem _ hz, hp, rfl⟩

/-- The open line's record is the one put in its place. -/
theorem openLine_withOpen {t : TallyUnit} {r d : LineRecord} (h : t.openLine? = some r) (hd : d.state = .opened) :
    (t.withOpen d).openLine? = some d := by
  unfold TallyUnit.openLine? TallyUnit.withOpen at *
  revert h
  dsimp only
  induction t.lines with
  | nil => simp
  | cons x l ih =>
    unfold changeFirst
    by_cases hx : x.state = .opened
    · simp [hx, hd]
    · simpa [hx] using ih

/-! ### The copy window -/

@[simp] theorem Window.add_count (w : Window) (it : Item) : (w.add it).count = w.count + 1 := by
  simp [Window.add, Window.count]

theorem enumItems_length (i : CopyIndex) (l : List Item) : (enumItems i l).length = l.length := by
  induction l generalizing i with
  | nil => rfl
  | cons x l ih => simp [enumItems, ih]

@[simp] theorem Window.rewrite_count (w : Window) (f : CopyIndex → Item → Item) : (w.rewrite f).count = w.count := by
  simp [Window.rewrite, Window.count, enumItems_length]

theorem Window.leave_count (w : Window) : w.leave.count = w.count - 1 := by
  unfold Window.leave Window.count
  split <;> simp_all

theorem Window.leaveN_count (n : Nat) (w : Window) : (Window.leaveN n w).count = w.count - n := by
  induction n generalizing w with
  | zero => rfl
  | succ n ih => rw [Window.leaveN, ih, Window.leave_count]; omega

theorem purgeItems_count (l : List Item) (i : CopyIndex) (b : LineParams) : (purgeItems l i b).count ≤ l.length := by
  induction l generalizing i b with
  | nil => exact Nat.le_refl _
  | cons x l ih =>
    unfold purgeItems
    split
    · exact (ih _ _).trans (Nat.le_succ _)
    · exact Nat.le_refl _

theorem Window.leaveBefore_count (w : Window) (e : CopyIndex) : (w.leaveBefore e).count ≤ w.count := by
  unfold Window.leaveBefore
  split
  · exact (purgeItems_count _ _ _).trans (by have := Window.leaveN_count (distance w.oldest e) w; unfold Window.count at *; omega)
  · exact Nat.le_refl _

/-- R12: an item that leaves does not move the next index. -/
theorem Window.leave_next (w : Window) : w.leave.next = w.next := by
  unfold Window.leave Window.next Window.count
  split
  · rfl
  next it rest h =>
    simp only [h, List.length_cons, BitVec.ofNat_add]
    rw [BitVec.add_assoc, BitVec.add_comm (1 : CopyIndex)]
    rfl

theorem Window.leaveN_next (n : Nat) (w : Window) : (Window.leaveN n w).next = w.next := by
  induction n generalizing w with
  | zero => rfl
  | succ n ih => rw [Window.leaveN, ih, Window.leave_next]

theorem purgeItems_next (l : List Item) (i : CopyIndex) (b : LineParams) :
    (purgeItems l i b).next = (⟨i, l, b⟩ : Window).next := by
  induction l generalizing i b with
  | nil => rfl
  | cons x l ih =>
    unfold purgeItems
    split
    · rw [ih]
      simp only [Window.next, Window.count, List.length_cons, BitVec.ofNat_add]
      rw [BitVec.add_assoc, BitVec.add_comm (1 : CopyIndex)]
      rfl
    · rfl

end Sys2Proof.Machine
end

