-- ==== Sys2Proof/Tests/Slice0.lean ====
section
/-! SUPPORT. Small checks against the manual's worked examples, and for every statement that has hypotheses a concrete
state that meets them. -/

namespace Sys2Proof.Tests

open Sys2Proof.Machine

/-- The next state an outcome gives. -/
def next? : Host.Outcome State Fault Refusal → Option State
  | .next t => some t
  | .fault _ => none
  | .refused _ => none

/-- A reader that stops for want of a word, with no glyph records made. -/
def wantsWord (x : Except ReadStop ShapeResult × ReadState) : Bool :=
  match x.1 with
  | .error (.need _) => x.2.shaped.isNone
  | _ => false

/-! ### Well-formed commands and table words -/

theorem test_long_frame_ill_formed : (Instr.frameReceived 0 (List.replicate 64 0) 0 false).wellFormed = false := by decide +kernel

theorem test_long_frame_refused :
    next? (exec (.frameReceived 0 (List.replicate 64 0) 0 false) State.reset) = none := by decide +kernel

theorem test_longest_frame_well_formed : (Instr.frameReceived 0 (List.replicate 63 0) 0 false).wellFormed = true := by decide +kernel

/-- The table gives no row any bits. -/
theorem test_no_table_word : decodeTableWord 8 0 = none ∧ State.reset.withFetchWord 8 0 = State.reset := by decide +kernel

/-! ### Worked examples of the manual -/

/-- The decoder fed copy bytes, with the items they complete. -/
def decodeAll : Decoder → List Byte → Decoder × List ItemBody
  | d, [] => (d, [])
  | d, b :: rest =>
    let x := d.byte b
    let y := decodeAll x.1 rest
    (y.1, x.2.toList ++ y.2)

/-- 1.5, frame 500. -/
theorem test_copy_frame_500 :
    (decodeAll Decoder.initial [0x0C, 0x04, 0xB0, 0x0E, 0x10, 0x01, 0x00, 0x06, 0x28, 0x29, 0x03, 0xF1, 0x23]).2 =
      [.measure 1200, .quad .justify .flushStart, .page 6, .character 1576, .character 1577, .space] := by decide +kernel

/-- 1.5, frame 501: the long character that spans the two frames. -/
theorem test_copy_frame_501 :
    (decodeAll { Decoder.initial with pageBase := 6, lead := some 0xF1, operand := some 0x23 } [0x45, 0x02, 0x00, 0x11]).2 =
      [.character 74565, .para] := by decide +kernel

/-- 2.9: fourteen pushes in hand. -/
def fourteenPushes : Splitter :=
  { Splitter.initial [] false true with
    startPending := false, level := 14,
    stack := (List.range 14).reverse.map (fun k => ⟨k + 1, if k % 2 = 0 then .rtl else .ltr, 0⟩) }

/-- 2.9. -/
theorem test_refused_pushes :
    let a := fourteenPushes.push .ltr 0
    let b := a.push .rtl 0
    let c := b.push .rtl 0
    let d := ((((c.pop 0).1.pop 0).1.pop 0).1.pop 0).1
    (a.level, a.overflow) = (14, 1) ∧ (b.level, b.stack.length, b.overflow) = (15, 15, 1) ∧
      (c.level, c.overflow) = (15, 2) ∧ (d.level, d.stack.length, d.overflow) = (13, 13, 0) := by decide +kernel

def glyphOf (advance size setSize : Nat) : GlyphRecord := ⟨1, 0, size, setSize, advance, 0, 0, 0, false, false, false, false⟩

/-- 5.5. -/
theorem test_run_of_three :
    let gs := [glyphOf 74 38 38, glyphOf 66 38 38, glyphOf 72 38 38]
    segmentWidth gs = 140 ∧ stepAdvances gs = [49, 43, 48] ∧ prefixWidth gs 2 (some ⟨7, 40, 0⟩) = 118 := by decide +kernel

/-- 5.5, the spaces. -/
theorem test_space_widths : (unitStepsNat 36 38, unitStepsNat 27 38, unitStepsNat 72 38) = (24, 18, 48) := by decide +kernel

/-- 5.6. -/
theorem test_stretch_shares :
    spreadShares 69 7 = [9, 10, 10, 10, 10, 10, 10] ∧ spreadShares 69 4 = [17, 17, 17, 18] ∧
      spreadShares 9 7 = [1, 1, 1, 2, 1, 1, 2] := by decide +kernel

/-- 5.7, and the oversize need that follows it. -/
theorem test_shrink :
    shrinkGives [6, 6, 4, 6, 6] 27 = [6, 5, 4, 6, 6] ∧ shrinkGives [6, 6, 4, 6, 6] 30 = [6, 6, 4, 6, 6] := by decide +kernel

/-- 5.8. -/
theorem test_quad_offsets :
    [quadOffset .flushStart 0 287, quadOffset .flushEnd 0 287, quadOffset .centre 0 287, quadOffset .justify 0 287] =
        [0, 287, 143, 0] ∧
      [quadOffset .flushStart 1 287, quadOffset .flushEnd 1 287, quadOffset .centre 1 287] = [287, 0, 143] := by decide +kernel

/-- 6.9: words of station 1's MEASURE, PLACE, NOTICE and RECALL at the default levels. -/
theorem test_words :
    let p : BusPort := { BusPort.initial with station := 1 }
    [(p.frame .measure []).word, (p.frame .place []).word, (p.frame .notice []).word, (p.frame .lineRecall []).word] =
      [1393, 1665, 2209, 273] := by decide +kernel

/-- 8.6: items A, space 1, B, space 2, C, space 3, D at their levels. -/
theorem test_mixed_line_order :
    visualOrder (fun x : Char × Nat => x.2) [('A', 1), ('1', 1), ('B', 2), ('2', 2), ('C', 2), ('3', 1), ('D', 1)] =
      [('D', 1), ('3', 1), ('B', 2), ('2', 2), ('C', 2), ('1', 1), ('A', 1)] := by decide +kernel

/-- 8.6: the glyphs of B, from its left edge 226. -/
theorem test_even_item :
    (layItem ⟨0, 0, 3, 2, 103, [], 0, 0, false, none⟩ ⟨.thin 0 2 0, 226, 103, [], true⟩
      [glyphOf 60 36 36, glyphOf 55 36 36, glyphOf 50 36 36] 0).map (·.x) = [226, 264, 298] := by decide +kernel

/-- 8.6: a mark of A whose base stands at 500. -/
theorem test_mark_offsets :
    markEntry { glyphOf 0 36 36 with dx := 33, dy := 120, mark := true } (some 500) 450 =
      ⟨1, 0, 521, 75, 36, true, false, false, false⟩ := by decide +kernel

/-- 8.7: records and pieces of an elongation gap of 17 with E 12, from the right edge 400. -/
theorem test_elongation_gap :
    (layOdd ⟨9, 0, 36, 12⟩ 400 none [] [17] [({ glyphOf 0 36 36 with elong := true }, 40), (glyphOf 0 36 36, 30)]).map
      (fun e => (e.x, e.piece)) = [(360, false), (348, true), (343, true), (313, false)] := by decide +kernel

/-! ### States for the hypotheses of statements -/

def frameOf (c : FrameClass) (sender : Nat) (payload : List Byte) : Frame := ⟨arbWord 0 c sender, payload⟩

def got (s : State) (f : Frame) : State := s.withPort { s.port with rx := [f] }

/-- Station 1 in ACTIVE, with the lines given. -/
def activeWith (lines : List LineRecord) : State := { State.reset with
  port := { BusPort.initial with station := 1 }
  splitter := Splitter.initial [⟨1568, 1610, .l, 2⟩] false true
  tally := { TallyUnit.initial with lines := lines }
  condition := ConditionUnit.initial .active }

def lineAt (n : LineNumber) (start : CopyIndex) : LineRecord := LineRecord.opening n start none []

/-- Station 1 in ACTIVE, line 0 open. -/
def active : State := activeWith [lineAt 0 0]

/-- A full stack, with a kill in progress or none. -/
def fullStack (kill : Option KillInProgress) : State := { active with
  splitter := { active.splitter with level := 15 }
  condition := { active.condition with kill := kill } }

/-- R27: a refused push that joins killed raises no EMBED OVERFLOW, another does. -/
theorem test_killed_push_raises_nothing :
    ((completeItem 12 .ltrEmbed (fullStack (some ⟨0, 0, 1, none⟩))).condition.reports,
      (completeItem 12 .ltrEmbed (fullStack none)).condition.reports) = ([], [⟨.embedOverflow, 0, some 12⟩]) := by
  decide +kernel

/-- R15, R169: the first PARA that joins while a kill waits ends it, and the next line opens after that PARA. -/
theorem test_kill_ends_at_joining_para :
    ((completeItem 12 .para ((fullStack (some ⟨0, 0, 1, none⟩)).withTally TallyUnit.initial)).tally.lines.map
      (fun r => (r.number, r.start))) = [(1, 1)] := by decide +kernel

def listening : State := { State.reset with
  port := { BusPort.initial with station := 1 }, condition := ConditionUnit.initial .listening }

def charItem (gaps : List GapNote) : Item := ⟨.character 1568, some (.own 0), some ⟨0, 36, 36, some 2⟩, false, gaps⟩

def paraItem : Item := ⟨.para, none, none, false, []⟩

def setting0 : Setting := shrunkSetting startingParams .justify []

/-- A decided line from `start` up to `e`. -/
def decidedLine (n : LineNumber) (start e : CopyIndex) : LineRecord :=
  { lineAt n start with state := .decided, endIdx := some e, decision := some ⟨.paragraph, setting0⟩ }

def heldWindow (items : List Item) : Window := ⟨0, items, startingParams⟩

/-! ### Start-up -/

theorem test_release_met : State.reset.condition.state = .reset ∧ State.reset.pins.cartridgePresent = true ∧
    State.reset.cartridge.outstanding = none ∧ State.reset.cartridge.waiting = [] ∧
    active.condition.state ≠ .reset := by decide +kernel

theorem test_release_absent_met :
    (State.reset.withPins ⟨true, false⟩).condition.state = .reset ∧
      (State.reset.withPins ⟨true, false⟩).pins.cartridgePresent = false := by decide +kernel

/-- A station whose profile reader has the words given and waits for the next. -/
def profiling (ws : List CartWord) : State := { State.reset with
  cartridge := { CartridgePort.initial with profileWords := some ws, outstanding := some ⟨.profile, ws.length, false⟩ }
  condition := ConditionUnit.initial .profiling }

/-- A fallback station's profile: version 3, size 1000, no claim, units 36, 27 and 72. -/
def goodProfile : List CartWord := [3, 0, 1000, 0, 1, 36, 27, 72] ++ List.replicate 87 0

theorem test_profile_last_met :
    let s := profiling goodProfile
    s.condition.state = .profiling ∧ s.cartridge.outstanding = some ⟨.profile, 95, false⟩ ∧
      s.cartridge.profileWords = some goodProfile ∧ s.cartridge.waiting = [] ∧ goodProfile.length = 95 ∧
      (Profile.ofWords (goodProfile ++ [0])).passes = true ∧
      (Profile.ofWords (List.replicate 95 0 ++ [0])).passes = false := by decide +kernel

theorem test_profile_first_met :
    (profiling []).condition.state = .profiling ∧ (profiling []).cartridge.outstanding = some ⟨.profile, 0, false⟩ ∧
      (profiling []).cartridge.profileWords = some [] ∧ (profiling []).cartridge.waiting = [] := by decide +kernel

theorem test_cartridge_fall_met : active.pins.cartridgePresent = true ∧ active.working = true ∧
    listening.condition.state = .listening ∧ (profiling []).condition.state = .profiling ∧
    (active.entering .withdrawn).condition.state = .withdrawn ∧
    (active.entering .refused).condition.state = .refused := by decide +kernel

theorem test_refused_met : (active.entering .refused).condition.state = .refused ∧
    next? (exec .musterFrame (active.entering .refused)) = some (active.entering .refused) := by decide +kernel

theorem test_frame_laws_met : next? (exec .musterFrame active) = some active := by decide +kernel

/-! ### Copy -/

theorem test_copy_character_met :
    let f := frameOf .copy 12 [0, 0, 0x28]
    (got active f).takes = true ∧ (got active f).port.rx = [f] ∧ f.cls = .copy ∧
      active.decoder.inSequence (wordField f.payload 0) = true ∧ active.decoder.lead = none ∧
      active.window.count < windowSize ∧ active.condition.kill = none := by decide +kernel

theorem test_copy_sequence_met :
    let f := frameOf .copy 12 [0, 0]
    let g := frameOf .copy 12 [0]
    (got active f).takes = true ∧ f.cls = .copy ∧ 2 ≤ f.payload.length ∧ g.cls = .copy ∧ g.payload.length < 2 := by decide +kernel

/-- Sequence number 5 was the last; 7 is a gap. -/
theorem test_listening_gap_met :
    let f := frameOf .copy 12 [0, 7]
    let s := got (listening.withDecoder { Decoder.initial with lastSeq := some 5 }) f
    s.condition.state = .listening ∧ s.port.rx = [f] ∧ f.cls = .copy ∧
      s.decoder.inSequence (wordField f.payload 0) = false := by decide +kernel

theorem test_fill_met : active.decodes = true ∧ active.decoder.lead = none ∧ active.decoder.operand = none := by decide +kernel

theorem test_pop_met :
    let p := Splitter.initial [] false true
    p.takesPush .rtl = true ∧ p.overflow = 0 ∧ p.level = (p.stack.head?.map StackEntry.level).getD p.paraBase ∧
      0 < (fourteenPushes.push .ltr 0).overflow ∧ fourteenPushes.stack ≠ [] := by decide +kernel

/-! ### Cutter, shaper and box builder -/

/-- A cartridge whose one font, in slots 0 and 2, lies at 1000. -/
def cartridge : CartridgePort := { CartridgePort.initial with size := 40000, directory := [1000, 0, 1000] }

/-- The words that shaping one character with code 1568 reads. -/
def shapeWords : List CartWord :=
  [300, 1, 2, 3, 0, 1100, 1, 0, 1200, 0, 0, 0, 0, 0, 0, 0, 0, 0, 0, 1568, 43, 20, 10, 0, 10, 0, 10, 0, 10, 0, 10, 0]

/-- One own character held, its segment in the state given, the cutter past it. -/
def oneSegment (x : SegState) : State := { active with
  window := heldWindow [charItem []]
  splitter := { active.splitter with cutPoint := 1 }
  cartridge := cartridge
  shaper := { Shaper.initial with records := [{ SegRecord.opening 0 0 0 .l with state := x }] } }

def firstRecord (s : State) : SegRecord := s.shaper.records.headD (SegRecord.opening 0 0 0 .l)

theorem test_cutting_met :
    let s := { oneSegment .waiting with splitter := active.splitter, shaper := Shaper.initial }
    s.working = true ∧ s.splitter.cutting = true ∧ s.window.item? s.splitter.cutPoint = some (charItem []) ∧
      (charItem []).cutEffect = .own 0 0 ∧ s.shaper.cutting? = none ∧ s.shaper.recordFree = true ∧
      (s.withSplitter { s.splitter with cutPoint := s.splitter.cutPoint + 1 }).quiet = true := by decide +kernel

theorem test_shaping_start_met :
    let s := oneSegment .waiting
    s.canStartShaping = true ∧ s.quiet = true ∧
      s.shaper.records.find? (fun x => x.state == .waiting) = some (firstRecord s) ∧
      s.shaper.record? (firstRecord s).start = some (firstRecord s) ∧ (firstRecord s).charCount ≤ s.shaper.free := by decide +kernel

theorem test_first_word_met :
    wantsWord (runReader (shapeSegment (oneSegment .waiting).readEnv
      ((oneSegment .waiting).shapeInput (firstRecord (oneSegment .waiting)))) []) = true := by decide +kernel

/-- A line in hand holds 768 glyph records; the next record has no room. -/
theorem test_shaping_full_met :
    let full := { SegRecord.opening 0 0 0 .l with state := .ready, glyphs := List.replicate 768 (glyphOf 0 0 0) }
    let r := { SegRecord.opening 1 0 0 .l with state := .waiting }
    let s := { activeWith [decidedLine 0 0 1, lineAt 1 1] with shaper := { Shaper.initial with records := [full, r] } }
    s.canStartShaping = true ∧ s.quiet = true ∧ s.shaper.records.find? (fun x => x.state == .waiting) = some r ∧
      s.shaper.record? r.start = some r ∧ s.shaper.free < r.charCount ∧ s.unfreeable + r.charCount ≤ storeSize := by decide +kernel

theorem test_store_wait_met :
    let s := oneSegment .storeWait
    s.working = true ∧ s.nothingWaits = true ∧ s.shaper.op = none ∧ s.shaper.boxOp = none ∧
      s.shaper.boxes.all (fun b => b.state != .storeWait) = true ∧
      s.shaper.records.filter (fun x => x.state == .storeWait) = [firstRecord s] ∧
      s.shaper.record? (firstRecord s).start = some (firstRecord s) ∧ (firstRecord s).charCount ≤ s.shaper.free := by decide +kernel

theorem test_store_wait_word_met :
    wantsWord (runReader (shapeSegment (oneSegment .storeWait).readEnv
      ((oneSegment .storeWait).shapeInput (firstRecord (oneSegment .storeWait)))) []) = true := by decide +kernel

/-- The segment's shaping has received every word and its records are measured. -/
def shaped : State := { oneSegment .shaping with
  shaper := { (oneSegment .shaping).shaper with op := some ⟨0, 1, shapeWords⟩ }
  measure := { MeasureUnit.initial with segment := some 0, numerator := 3600, measured := 1 } }

theorem test_shaping_complete_met :
    (match shaped.shapingProgress with
      | some (op, _, .ok res, _) => shaped.measure.segment == some op.start && res.misses.isEmpty
      | _ => false) = true := by decide +kernel

theorem test_shaping_complete_quiet : shaped.working = true ∧ shaped.nothingWaits = true ∧ shaped.noStoreWait = true ∧
    shaped.shaper.boxOp = none ∧ shaped.hasRoom .shaper .measure false = true := by decide +kernel

/-- The width of one glyph of 10 units at 36 quarter points, which 5.1's rule gives: (3600 + 288) ÷ 576. -/
theorem test_shaped_width :
    (next? (exec .shapingComplete shaped)).map (fun t =>
      t.shaper.records.map (fun r => (r.state == .ready, r.width, r.glyphs.length))) = some [(true, 6, 1)] := by
  decide +kernel

/-- The fallback station with a box to build over one unclaimed character. -/
def boxDue : State := { oneSegment .ready with
  window := heldWindow [{ charItem [] with owner := some .unclaimed }]
  shaper := { Shaper.initial with plan := [⟨0, 1, 1, 0, false⟩] } }

theorem test_box_start_met :
    boxDue.canStartBox = true ∧ boxDue.quiet = true ∧ boxDue.shaper.plan = [⟨0, 1, 1, 0, false⟩] ∧
      boxDue.shaper.box? 0 = none ∧ 1 ≤ boxDue.shaper.free := by decide +kernel

theorem test_box_word_met :
    wantsWord (runReader (shapeBox boxDue.readEnv 0 (boxDue.window.chars 0 1)) []) = true := by decide +kernel

/-- The words a box build reads: the font record of slot 0 and its missing glyph's entry. -/
def boxBuilt : State := { boxDue with
  shaper := { Shaper.initial with
    boxes := [⟨0, 1, 1, 0, false, 0, [], false, .building⟩], boxOp := some ⟨0, 1, shapeWords.take 18 ++ [600, 0]⟩ }
  measure := { MeasureUnit.initial with segment := some 0, numerator := 216000, measured := 1 } }

theorem test_box_complete_met :
    (match boxBuilt.boxProgress with
      | some (op, _, .ok _, _) => boxBuilt.measure.segment == some op.start
      | _ => false) = true := by decide +kernel

theorem test_box_complete_quiet : boxBuilt.working = true ∧ boxBuilt.nothingWaits = true ∧ boxBuilt.noStoreWait = true ∧
    boxBuilt.shaper.op = none ∧ boxBuilt.hasRoom .boxBuilder .measure false = true := by decide +kernel

/-- The shaping operation on one character waits for the last of the words given; the font record's first word is `count`. -/
def shaperReads (count : CartWord) (n : Nat) : State := { oneSegment .shaping with
  cartridge := { cartridge with outstanding := some ⟨.shaper, 1000 + n, false⟩ }
  shaper := { (oneSegment .shaping).shaper with op := some ⟨0, 1, (count :: shapeWords.drop 1).take n⟩ } }

def shapeRun (s : State) (usable : List Bool) (words : List CartWord) : Except ReadStop ShapeResult × ReadState :=
  runReader (shapeSegment { s.readEnv with usable := usable } (s.shapeInput (firstRecord s))) words

theorem test_shaper_read_met :
    let s := shaperReads 300 3
    s.working = true ∧ s.nothingWaits = true ∧ s.noStoreWait = true ∧ s.shaper.boxOp = none ∧
      s.cartridge.outstanding = some ⟨.shaper, 1003, false⟩ ∧ s.shaper.op = some ⟨0, 1, [300, 1, 2]⟩ ∧
      s.shaper.record? 0 = some (firstRecord s) ∧ wantsWord (shapeRun s s.cartridge.usable ([300, 1, 2] ++ [3])) = true := by
  decide +kernel

/-- A font record with no glyphs: its 18th word shows the violation in slot 2. -/
theorem test_shaper_violation_met :
    let s := shaperReads 0 17
    (match (shapeRun s s.cartridge.usable ((0 :: shapeWords.drop 1).take 17 ++ [0])).1 with
      | .error e => e == .violation 2 0
      | .ok _ => false) = true ∧
      wantsWord (shapeRun s (s.cartridge.usable.set 2 false) []) = true ∧ s.condition.killPeriod = none ∧
      lineConcerned s 0 = some ⟨0, 0, some 0⟩ ∧ s.hasRoom .notice .notice false = true := by decide +kernel

/-- The box build on one character waits for the last of the words given; the font record's first word is `count`. -/
def boxReads (count : CartWord) (n : Nat) : State := { boxDue with
  cartridge := { cartridge with outstanding := some ⟨.box, 1000 + n, false⟩ }
  shaper := { Shaper.initial with
    boxes := [⟨0, 1, 1, 0, false, 0, [], false, .building⟩], boxOp := some ⟨0, 1, (count :: shapeWords.drop 1).take n⟩ } }

theorem test_box_read_met :
    let s := boxReads 300 3
    let bad := boxReads 0 17
    s.working = true ∧ s.nothingWaits = true ∧ s.noStoreWait = true ∧ s.shaper.op = none ∧
      s.shaper.building? 0 = some ⟨0, 1, 1, 0, false, 0, [], false, .building⟩ ∧
      wantsWord (runReader (shapeBox s.readEnv 0 (s.window.chars 0 1)) ([300, 1, 2] ++ [3])) = true ∧
      (match (runReader (shapeBox bad.readEnv 0 (bad.window.chars 0 1)) ((0 :: shapeWords.drop 1).take 17 ++ [0])).1 with
        | .error e => e == .violation 0 0
        | .ok _ => false) = true := by decide +kernel

theorem test_abandoned_read_met :
    let s := active.withCartridge { CartridgePort.initial with outstanding := some ⟨.shaper, 1000, true⟩ }
    s.quiet = true ∧ s.cartridge.outstanding = some ⟨.shaper, 1000, true⟩ := by decide +kernel

theorem test_remainder_met :
    let r := { SegRecord.opening 3 0 0 .l with state := .waiting, origin := some 0 }
    let s := active.withShaper { Shaper.initial with remainder := some r }
    s.working = true ∧ s.shaper.remainder = some r ∧ s.shaper.records.length < recordLimit ∧
      (s.withShaper { s.shaper with remainder := none }).quiet = true := by decide +kernel

/-! ### Measure arithmetic -/

/-- A space of 36, 27 and 72 units at 38 quarter points between two segments of 100. -/
def threeItems : List TallyItem :=
  [.segment ⟨1, 0, 1, 0, 100, [], 0, 0, false, none⟩, .space 1 0 24 18 48, .segment ⟨1, 2, 1, 0, 100, [], 0, 0, false, none⟩]

theorem test_setting_met :
    naturalWidth threeItems ≤ { startingParams with measure := 224 }.measure ∧ 0 < spaceCount threeItems ∧
      { startingParams with measure := 218 }.measure < naturalWidth threeItems ∧
      naturalWidth threeItems - 218 = (threeItems.map TallyItem.shrink).sum := by decide +kernel

theorem test_shrink_items_met :
    let st := shrunkSetting { startingParams with measure := 100 } .justify threeItems
    threeItems[1]? = some (.space 1 0 24 18 48) ∧ st.widths[1]? = some 18 ∧
      (threeItems.map TallyItem.shrink).sum ≤ naturalWidth threeItems - 100 := by decide +kernel

/-- Items of level 2, and of level 3, in logical order. -/
theorem test_visual_order_met :
    let at3 : List VisualItem := [⟨.thin 0 3 5, 0, 5, [], false⟩, ⟨.thin 1 3 6, 0, 6, [], false⟩]
    (∀ v ∈ at3, v.item.level = 3) ∧ 3 % 2 = 1 ∧ (∀ v ∈ [(⟨.thin 0 2 5, 0, 5, [], false⟩ : VisualItem)], v.item.level % 2 = 0) ∧
      visualOrder (fun v => v.item.level) at3 = at3.reverse := by decide +kernel

/-! ### Bus -/

def queued (f : Frame) (attempts : Nat) (held flight : Bool) : TxFrame := ⟨f, false, attempts, held, flight, false⟩

/-- A PLACE frame held back, then a NOTICE that may go. -/
theorem test_attempt_start_met :
    let t := queued (frameOf .notice 1 []) 0 false false
    let p := queued (frameOf .place 1 []) 0 true false
    let s := active.withPort { active.port with tx := [p, t] }
    s.offers = true ∧ s.port.tx = [p] ++ t :: [] ∧ [p].all (fun x => x.heldBack) = true ∧ t.heldBack = false ∧
      (active.withPort { active.port with tx := [p] }).offers = true ∧ listening.offers = false := by decide +kernel

def sending (f : Frame) (attempts : Nat) : State :=
  active.withPort { active.port with tx := [queued f attempts false true] }

theorem test_attempt_end_met :
    let s := sending (frameOf .notice 1 []) 6
    s.working = true ∧ s.port.clearPending = false ∧ s.port.tx = [] ++ queued (frameOf .notice 1 []) 6 false true :: [] ∧
      s.quiet = true ∧ s.spoils .notice true = false ∧ (frameOf .notice 1 []).isClear = false := by decide +kernel

theorem test_withdrawal_met :
    let s := { sending (frameOf .notice 1 []) 7 with
      port := { (sending (frameOf .notice 1 []) 7).port with withdrawalPending := true } }
    s.condition.state = .active ∧ s.port.withdrawalPending = true ∧ s.port.clearPending = false ∧
      s.port.tx = [queued (frameOf .notice 1 []) 7 false true] ∧ s.cartridge.waiting = [] := by decide +kernel

/-- What every clause on a frame in flight takes of its state. -/
def inFlight (s : State) (x : TxFrame) : Bool :=
  s.working && !s.port.clearPending && s.quiet && s.port.tx == [] ++ x :: [] && x.inFlight

theorem test_removal_noted_met :
    let x := { queued (frameOf .place 1 []) 0 false true with removed := true }
    let s := active.withPort { active.port with tx := [x] }
    inFlight s x = true ∧ x.removed = true ∧ s.spoils .place true = false ∧ x.frame.isClear = false := by decide +kernel

theorem test_dropped_frames_met :
    [FrameClass.notice, .muster, .lineRecall, .lineKill, .verdict, .place, .measure].all (fun c =>
      inFlight (sending (frameOf c 1 [0, 0, 0, 0, 0, 18]) 7) (queued (frameOf c 1 [0, 0, 0, 0, 0, 18]) 7 false true) &&
        (frameOf c 1 [0, 0, 0, 0, 0, 18]).cls == c) = true ∧
      (sending (frameOf .verdict 1 [0, 0]) 7).tally.line? (frameOf .verdict 1 [0, 0]).lineNumber = some (lineAt 0 0) ∧
      (sending (frameOf .verdict 1 [0, 9]) 7).tally.line? (frameOf .verdict 1 [0, 9]).lineNumber = none ∧
      lineConcerned (sending (frameOf .measure 1 [0, 0]) 7) 0 = some ⟨0, 0, some 0⟩ ∧
      active.window.killedAt 0 = false ∧ active.condition.killPeriod = none ∧
      active.hasRoom .recallKill .lineRecall true = true ∧ active.hasRoom .notice .notice false = true ∧
      recallHeld active.port .lineRecall 0 0 = false := by decide +kernel

/-- A dropped MEASURE in a killed span, and a drop in the kill period. -/
theorem test_dropped_in_kill_met :
    let s := { sending (frameOf .measure 1 [0, 0]) 7 with
      window := heldWindow [{ charItem [] with killed := true }], splitter := { active.splitter with cutPoint := 1 }
      condition := { ConditionUnit.initial .active with killPeriod := some 0 } }
    s.window.killedAt 0 = true ∧ inFlight s (queued (frameOf .measure 1 [0, 0]) 7 false true) = true ∧
      s.condition.killPeriod = some 0 := by decide +kernel

/-- The word of a MUSTER of station 2, and of one of this station's number. -/
theorem test_frame_received_met :
    let w := arbWord 8 .muster 2
    let own := arbWord 8 .muster 1
    active.port.withdrawalPending = false ∧ active.spoils (wordClass w) (checkWord w [2, 0, 0] == checkWord w [2, 0, 0]) = false ∧
      wordSender w ≠ active.port.station ∧ wordClass w ≠ .clear ∧ wordSender own = active.port.station ∧
      active.spoils (wordClass w) (0 == checkWord w [2, 0, 0]) = true ∧
      listening.spoils (wordClass own) true = false := by decide +kernel

theorem test_clear_carried_met :
    let w := arbWord 0 .clear 14
    active.working = true ∧ wordClass w = .clear ∧ wordSender w ≠ active.port.station ∧ active.port.rx.length < 16 := by
  decide +kernel

theorem test_spoil_table_met :
    active.port.withdrawalPending = false ∧ active.condition.state = .active ∧ listening.condition.state = .listening ∧
      (active.entering .withdrawn).condition.state = .withdrawn ∧ (profiling []).condition.state = .profiling := by decide +kernel

theorem test_waiting_frame_met :
    let w : WaitingFrame := ⟨.notice, frameOf .notice 1 []⟩
    let s := active.withPort { active.port with waiting := [w] }
    s.working = true ∧ s.port.waiting = [w] ∧ s.port.slotFor w.frame.cls = some false ∧
      (s.withPort { s.port with waiting := [] }).quiet = true := by decide +kernel

/-! ### Frames at the head -/

theorem test_effectless_met :
    [FrameClass.unassigned, .lineRecall, .lineKill, .taken, .verdict, .measure, .place, .notice, .muster].all (fun c =>
      let s := got active (frameOf c 2 [])
      s.takes && s.popped.quiet && (frameOf c 2 []).cls == c) = true ∧
      RecallMsg.parse [] = none ∧ VerdictMsg.parse [] = none ∧ MeasureMsg.parse [] = none ∧ PlaceMsg.parse [] = none := by
  decide +kernel

/-- 12.2, R186: a MEASURE of 3 items with opportunities at offsets 1 and 2, at 1 and 1, and at 1 and 3. -/
theorem test_malformed_measures :
    let p (x : Byte) : List Byte := [0, 0, 0, 3, 0, 0, 0, 9, 0, 0, 0, 2, 0, 0, 1, 0, 0, 5, 0, 0, x, 0, 0, 7]
    [p 2, p 1, p 3].map (fun q => (MeasureMsg.parse q).isSome) = [true, false, false] := by decide +kernel

theorem test_clear_met :
    let f := frameOf .clear 14 []
    (got listening f).port.rx = [f] ∧ f.cls = .clear ∧ ([] : List Frame).any Frame.isClear = false ∧
      (got listening f).condition.state = .listening ∧
      ((got listening f).entering .withdrawn).pins.cartridgePresent = true ∧
      (((got listening f).entering .withdrawn).withPins ⟨false, false⟩).condition.state = .withdrawn := by decide +kernel

/-- A VERDICT that ends a paragraph with end index 500, at a station that holds the items given. -/
def joining (items : List Item) (last : Bool) : State :=
  got { listening with window := heldWindow items }
    (frameOf .verdict 2 (VerdictMsg.encode ⟨6, 0, 400, 500, .paragraph, 0, 0, 0, 0, 0, 120, last, false, false⟩))

theorem test_join_met :
    let s := joining [charItem [], paraItem] true
    let m := (s.port.rx.head?.bind (fun f => VerdictMsg.parse f.payload))
    s.condition.state = .listening ∧ s.port.withdrawalPending = false ∧ m.map (fun x => (x.lastOfPara, x.endIdx)) = some (true, 500) ∧
      s.window.anchor? = some 1 ∧ s.copyReserve ≤ (s.window.anchored 1 500).free ∧
      s.window.items.drop (distance s.window.oldest 1 + 1) = [] ∧ s.port.tx = [] ∧ s.port.waiting = [] ∧
      s.port.clearPending = false ∧ s.shaper = Shaper.initial ∧ s.cartridge.waiting = [] ∧ s.placement.lines = [] ∧
      s.placement.held = false := by decide +kernel

/-- A station that holds no PARA cannot join, and a VERDICT within a paragraph is not offered. -/
theorem test_no_join_met :
    (joining [charItem []] true).popped.quiet = true ∧ (joining [charItem []] true).window.anchor? = none ∧
      (joining [paraItem] false).popped.quiet = true := by decide +kernel

/-- R19, R181: the item after the PARA is renumbered from the end index, and line 7 opens there. -/
theorem test_join_renumbers :
    (next? (exec .verdictFrame (joining [charItem [], paraItem, charItem []] true))).map (fun t =>
      (t.condition.state, t.window.oldest, t.window.count, t.tally.lines.map (fun r => (r.number, r.start)))) =
        some (.active, 500, 1, [(7, 500)]) := by decide +kernel

theorem test_roster_met :
    let m := frameOf .muster 7 [7, 0, 0]
    let n := frameOf .notice 7 [52, 3, 2, 0, 0, 0, 0, 0, 0, 0, 0]
    (got active m).takes = true ∧ (got active m).popped.quiet = true ∧ m.cls = .muster ∧ m.sender = 7 ∧
      n.cls = .notice ∧ 11 ≤ n.payload.length ∧ numField n.payload 0 1 = 52 := by decide +kernel

theorem test_hold_met :
    let h := frameOf .hold 13 []
    let r := frameOf .release 13 []
    let held := active.withPlacement { active.placement with held := true }
    (got active h).working = true ∧ (got active h).popped.quiet = true ∧ h.cls = .hold ∧ r.cls = .release ∧
      active.placement.response = .atFrame ∧ active.placement.held = false ∧ (got held r).popped.quiet = true := by decide +kernel

def placeMsg : PlaceMsg := ⟨0, 0, 0, false, [⟨1, 0, 0, 0, 36, false, false, false, false⟩]⟩

/-- A line of two entries, both handed over, none carried. -/
def placed : PlaceState := ⟨0, 0, [], 2, 2, false, false, [false, false]⟩

/-- Line 0 decided, with two placements handed over; the response given, held or not, a PLACE frame queued. -/
def holding (x : HoldResponse) (held : Bool) (p : PlaceState) : State := { activeWith [decidedLine 0 0 1, lineAt 1 1] with
  placement := { PlacementUnit.initial x with held := held, lines := [p] }
  port := { active.port with tx := [queued (frameOf .place 1 [0, 0]) 0 false false] } }

theorem test_hold_responses_met :
    let h := frameOf .hold 13 []
    let r := frameOf .release 13 []
    (got (holding .atLineEnd false placed) h).popped.quiet = true ∧ (got (holding .atLineEnd true placed) r).popped.quiet = true ∧
      (holding .atLineEnd false placed).working = true ∧ (holding .atLineEnd false placed).placement.response = .atLineEnd ∧
      (got (holding .replaceLine false placed) h).popped.quiet = true ∧
      (holding .replaceLine false placed).tally.decided 0 = true ∧
      (got listening h).popped.quiet = true ∧ listening.placement.held = false ∧ h.cls = .hold ∧ r.cls = .release := by
  decide +kernel

theorem test_replace_again_met :
    let p := { placed with toReplace := true, nextEntry := 0 }
    let s := got (holding .replaceLine true p) (frameOf .release 13 [])
    s.popped.quiet = true ∧ s.working = true ∧ s.placement.held = true ∧ s.placement.lines = [p] ∧ p.toReplace = true ∧
      0 < p.entryCount ∧ p.entryCount ≤ 6 ∧ s.hasRoom .placement .place false = true := by decide +kernel

/-- Held under REPLACE LINE, with a line of 8 entries and one of 2 to place again. -/
def toReplace : State := { holding .replaceLine true placed with
  placement := { PlacementUnit.initial .replaceLine with
    held := true
    lines := [{ placed with entryCount := 8, nextEntry := 0, toReplace := true },
              { placed with number := 1, nextEntry := 0, toReplace := true }] } }

theorem test_release_round_met :
    let s := got toReplace (frameOf .release 13 [])
    s.popped.quiet = true ∧ s.working = true ∧ s.placement.held = true ∧ s.placement.response = .replaceLine ∧
      (s.placement.lines.map (·.number)).Nodup ∧ s.port.clearPending = false ∧
      s.port.ordinaryUsed + ((s.placement.lines.filter (·.toReplace)).flatMap s.roundFrames).length ≤ 24 := by decide +kernel

/-- R148, R155: 8 entries go out in two frames, from entries 0 and 6, and then the next line's. -/
theorem test_release_round :
    (next? (exec .releaseFrame (got toReplace (frameOf .release 13 [])))).map (fun t =>
      (t.port.tx.map (fun x => (x.frame.lineNumber, numField x.frame.payload 3 2, hasBit (numField x.frame.payload 5 1) 128)),
        t.placement.lines.map (·.nextEntry))) =
      some ([(0, 0, false), (0, 0, false), (0, 6, true), (1, 0, true)], [8, 2]) := by decide +kernel

theorem test_hold_repeated_met :
    (got (holding .atLineEnd true placed) (frameOf .hold 13 [])).popped.quiet = true ∧
      (got (holding .replaceLine false placed) (frameOf .release 13 [])).popped.quiet = true ∧
      (got toReplace (frameOf .hold 13 [])).popped.quiet = true := by decide +kernel

/-- 8.5: a REPLACE LINE hold takes the queued PLACE frame of a DECIDED line out of the queue. -/
theorem test_replace_hold :
    (next? (exec .holdFrame (got (holding .replaceLine false placed) (frameOf .hold 13 [])))).map (fun t =>
      (t.port.tx, t.placement.lines.map (fun p => (p.toReplace, p.nextEntry)))) = some ([], [(true, 0)]) := by decide +kernel

theorem test_place_met :
    let f := frameOf .place 1 placeMsg.encode
    let s := got (active.withPlacement { active.placement with lines := [placed] }) f
    s.working = true ∧ s.popped.quiet = true ∧ f.cls = .place ∧ PlaceMsg.parse f.payload = some placeMsg ∧
      f.sender = s.port.station ∧ s.placement.line? 0 = some placed ∧ (placed.afterCarry placeMsg).carried = false := by
  decide +kernel

/-- The frame that carries the second entry completes the round. -/
theorem test_place_round_met :
    let m := { placeMsg with first := 1 }
    let p := { placed with marks := [true, false] }
    let s := got { activeWith [{ decidedLine 0 0 1 with ownVerdict := true }, lineAt 1 1] with
      placement := { active.placement with lines := [p] } } (frameOf .place 1 m.encode)
    s.working = true ∧ s.popped.quiet = true ∧ PlaceMsg.parse m.encode = some m ∧ s.placement.line? 0 = some p ∧
      (p.afterCarry m).carried = true ∧ p.marks[0]? = some true ∧ active.placement.line? 0 = none ∧
      s.tally.line? 0 = some { decidedLine 0 0 1 with ownVerdict := true } := by decide +kernel

/-! ### Tally -/

def measureMsg : MeasureMsg := ⟨0, 1, 0, 50, 0, false, 0, []⟩

/-- Lines 0 and 1 in hand, line 2 open at index 0 of the items held. -/
theorem test_measure_met :
    let f := frameOf .measure 2 measureMsg.encode
    let s := got { activeWith [decidedLine 0 65534 65535, decidedLine 1 65535 0, lineAt 2 0] with
      window := heldWindow [charItem []], splitter := { active.splitter with cutPoint := 1 } } f
    s.working = true ∧ f.cls = .measure ∧ MeasureMsg.parse f.payload = some measureMsg ∧ s.window.admits 0 1 = true ∧
      s.tally.owning? 0 = some (lineAt 2 0) ∧ s.tally.openLine? = some (lineAt 2 0) ∧ s.tally.inHand.length = 2 ∧
      s.tally.inHand.all (fun x => x.number != 2) = true := by decide +kernel

/-- The open line waits at index 0; a MEASURE for index 1 arrives. -/
theorem test_measure_waiting_met :
    let r := { lineAt 0 0 with params := some startingParams, gapChecked := true, scan := ⟨0, 0, 0, [], .gap⟩ }
    let m := { measureMsg with start := 1 }
    let s := got { activeWith [r] with
      window := heldWindow [charItem [], charItem []], splitter := { active.splitter with cutPoint := 2 } }
      (frameOf .measure 2 m.encode)
    s.popped.quiet = true ∧ s.working = true ∧ MeasureMsg.parse m.encode = some m ∧ s.window.admits 1 1 = true ∧
      s.tally.owning? 1 = some r ∧ s.tally.openLine? = some r ∧ s.tally.lines.all (fun x => x.gapChecked) = true ∧
      r.params.isSome = true ∧ r.overfull = false ∧ s.window.item? r.scan.point = some (charItem []) ∧
      r.segmentAt? r.scan.point = none ∧ m.start ≠ r.scan.point := by decide +kernel

theorem test_insert_item_met :
    let l : List TallyItem := [.thin 65535 0 5, .thin 1 0 5]
    l.Pairwise (fun a b => distance 65530 a.start < distance 65530 b.start) ∧
      (∀ y ∈ (TallyItem.thin 0 0 5) :: l, distance 65530 y.start < 32768) ∧ (∀ y ∈ l, y.start ≠ 0) := by decide +kernel

/-- An empty paragraph: its line's scan stands at PARA. -/
def paraLine : LineRecord :=
  { lineAt 0 0 with params := some startingParams, gapChecked := true, scan := ⟨0, 0, 0, [], .para⟩ }

def paraState : State := { activeWith [paraLine] with
  window := heldWindow [paraItem], splitter := { active.splitter with cutPoint := 1 } }

theorem test_decision_met :
    paraState.working = true ∧ paraState.tally.openLine? = some paraLine ∧ paraState.tally.line? 0 = some paraLine ∧
      paraLine.params = some startingParams ∧ paraLine.decidable = true ∧ paraState.tally.inHand.length < 2 ∧
      checkGapMark paraState = paraState ∧ runScan paraState = paraState := by decide +kernel

/-- Opportunities that reach 100, 200 and 300 steps in a line of measure 200, and of measure 50. -/
theorem test_break_met :
    let o (k : Nat) : RecordedOpp := ⟨BitVec.ofNat 16 k, none, 100 * k, 0⟩
    let r := { lineAt 0 0 with scan := ⟨5, 400, 0, [o 1, o 2, o 3], .beyond⟩ }
    (r.chooseBreak 200).overset = false ∧ (r.chooseBreak 200).opp = some (o 2) ∧ (r.chooseBreak 50).overset = true ∧
      (paraLine.chooseBreak 0).overset = false ∧ (paraLine.chooseBreak 0).opp = none := by decide +kernel

def verdictMsg : VerdictMsg := ⟨0, 0, 0, 1, .paragraph, 0, 0, 0, 0, 0, 120, true, false, false⟩

theorem test_verdict_met :
    let f := frameOf .verdict 2 verdictMsg.encode
    let s := got active f
    s.working = true ∧ s.popped.quiet = true ∧ f.cls = .verdict ∧ VerdictMsg.parse f.payload = some verdictMsg ∧
      s.tally.fenced verdictMsg = false ∧ s.tally.line? 0 = some (lineAt 0 0) := by decide +kernel

theorem test_own_verdict_met :
    let f := frameOf .verdict 1 verdictMsg.encode
    let r := decidedLine 0 0 1
    let s := got (activeWith [r, lineAt 1 1]) f
    s.working = true ∧ s.popped.quiet = true ∧ f.cls = .verdict ∧ f.sender = s.port.station ∧
      VerdictMsg.parse f.payload = some verdictMsg ∧ s.tally.fenced verdictMsg = false ∧ s.tally.line? 0 = some r ∧
      r.ownVerdict = false ∧ r.figures? = some verdictMsg.figures ∧ s.tally.verdictWait.watched = none := by decide +kernel

/-- A line in hand while a kill waits for its PARA. -/
theorem test_taken_met :
    let f := frameOf .taken 13 [0, 0]
    let s := got (activeWith [decidedLine 0 0 1]) f
    s.working = true ∧ f.cls = .taken ∧ parseTaken f.payload = some 0 ∧ s.tally.takenBy 0 = [decidedLine 0 0 1] ∧
      s.tally.openLine? = none := by decide +kernel

/-- Lines 0 and 1 in hand, line 2 open; TAKEN names line 1, or line 7. -/
theorem test_taken_open_met :
    let s := got (activeWith [decidedLine 0 0 1, decidedLine 1 1 2, lineAt 2 2]) (frameOf .taken 13 [0, 1])
    let u := got active (frameOf .taken 13 [0, 7])
    s.working = true ∧ s.tally.takenBy 1 = [decidedLine 0 0 1] ++ [decidedLine 1 1 2] ∧
      (∀ x ∈ [decidedLine 0 0 1, decidedLine 1 1 2], lineBehind x.number 2 = true) ∧
      s.tally.inHand.any (fun r => r.number == 1) = true ∧ u.tally.inHand = [] ∧ u.popped.quiet = true ∧
      settleTally u.popped = u.popped := by decide +kernel

def covering (x : CoverageStage) (fallback : Bool) : State := { active with
  splitter := { active.splitter with fallback := fallback }
  tally := { active.tally with coverage := x } }

theorem test_coverage_met :
    (covering .first false).working = true ∧ (covering .first false).quiet = true ∧ (covering .first true).quiet = true ∧
      (covering .first true).tally.openLine? = some (lineAt 0 0) := by decide +kernel

theorem test_coverage_second_met :
    let s := covering .second false
    s.working = true ∧ s.quiet = true ∧ s.tally.openLine? = some (lineAt 0 0) ∧ s.condition.killPeriod = none ∧
      s.hasRoom .recallKill .lineRecall true = true ∧ s.hasRoom .notice .notice false = true ∧
      recallHeld s.port .lineRecall 0 0 = false := by decide +kernel

theorem test_verdict_wait_met :
    let s := active.withTally { active.tally with roster := [1, 2], verdictWait := ⟨some 0, none⟩ }
    s.working = true ∧ s.tally.verdictWait.watched = some 0 ∧ s.tally.line? 0 = some (lineAt 0 0) ∧ s.quiet = true ∧
      s.tally.roster.filter (fun x => x != s.port.station && !(lineAt 0 0).answeredBy x) = [2] ∧
      s.hasRoom .notice .notice false = true := by decide +kernel

/-! ### Conditions, recall and kill -/

def gapState : State := { active with
  window := heldWindow [charItem [⟨0, 12⟩]], splitter := { active.splitter with cutPoint := 1 } }

theorem test_copy_gap_met :
    gapState.working = true ∧ gapState.quiet = true ∧ gapState.tally.openLine? = some (lineAt 0 0) ∧
      gapState.window.holds 0 = true ∧ gapState.window.item? 0 = some (charItem [⟨0, 12⟩]) ∧
      gapState.hasRoom .recallKill .lineKill true = true ∧ gapState.hasRoom .notice .notice false = true ∧
      recallHeld gapState.port .lineKill 0 0 = false := by decide +kernel

theorem test_trap_report_met :
    let r := { decidedLine 0 0 1 with ownVerdict := true }
    let s := { activeWith [r, lineAt 1 1] with
      condition := { ConditionUnit.initial .active with reports := [⟨.overset, 0, none⟩] } }
    s.working = true ∧ s.quiet = true ∧ s.tally.inHand = [r] ∧ s.tally.taken = none ∧ r.spans 0 = true ∧
      s.hasRoom .notice .notice false = true := by decide +kernel

def recallMsg (gen : Nat) : RecallMsg := ⟨0, gen, 0, 18⟩

theorem test_recall_met :
    let f := frameOf .lineRecall 2 (recallMsg 0).encode
    let s := got active f
    s.working = true ∧ f.cls = .lineRecall ∧ RecallMsg.parse f.payload = some (recallMsg 0) ∧
      s.tally.isTaken 0 = false ∧ s.tally.line? 0 = some (lineAt 0 0) ∧ s.condition.kill = none := by decide +kernel

/-- Line 0 decided, line 1 open behind it, a character at the start of line 0. -/
def recalled : State :=
  got { activeWith [{ decidedLine 0 0 1 with params := some startingParams }, lineAt 1 1] with
    window := heldWindow [charItem []], splitter := { active.splitter with cutPoint := 1 } }
    (frameOf .lineRecall 2 (recallMsg 0).encode)

theorem test_recall_reopens_met :
    let r := { decidedLine 0 0 1 with params := some startingParams }
    recalled.working = true ∧ recalled.popped.quiet = true ∧ recalled.tally.line? 0 = some r ∧
      recalled.window.item? r.start = some (charItem []) ∧ r.params.isSome = true ∧
      (recalled.tally.lines.takeWhile (fun x => x.number != 0)).all (fun x => x.state != .opened) = true := by decide +kernel

/-- 11.5: the recalled line is OPEN at generation 1 and the line behind it is gone. -/
theorem test_recall_reopens :
    (next? (exec .recallFrame recalled)).map (fun t =>
      (t.tally.lines.map (fun r => (r.number, r.gen)), t.tally.lines.all (fun r => r.state == .opened), t.tally.fence)) =
        some ([(0, 1)], true, some 0) := by decide +kernel

theorem test_kill_met :
    let f := frameOf .lineKill 2 (recallMsg 0).encode
    let g := frameOf .lineRecall 2 (recallMsg 1).encode
    let s := got { active with window := heldWindow [charItem []] } f
    s.working = true ∧ f.cls = .lineKill ∧ RecallMsg.parse f.payload = some (recallMsg 0) ∧ s.tally.isTaken 0 = false ∧
      s.tally.line? 0 = some (lineAt 0 0) ∧ s.window.para? 0 = none ∧ s.condition.kill = none ∧
      s.tally.lines.all (fun x => !lineBehind x.number 0) = true ∧ g.cls = .lineRecall ∧
      RecallMsg.parse g.payload = some (recallMsg 1) := by decide +kernel

theorem test_kill_end_met :
    let k : KillInProgress := ⟨0, 0, 1, none⟩
    let s := { activeWith [] with
      window := heldWindow [charItem [], paraItem], splitter := { active.splitter with cutPoint := 2 }
      condition := { ConditionUnit.initial .active with kill := some k } }
    s.working = true ∧ s.condition.kill = some k ∧ s.window.para? k.start = some 1 ∧
      s.tally.lines.all (fun x => x.number != k.next && x.state != .opened) = true ∧ s.window.holds 2 = false ∧
      s.nothingWaits = true ∧ s.noStoreWait = true ∧
      s.shaper.op = none ∧ s.shaper.boxOp = none := by decide +kernel

/-- A kill waits for its PARA, the hold has run its 30 s, and no line is held. -/
def heldInKill : State := { activeWith [] with
  window := heldWindow [charItem []], splitter := { active.splitter with cutPoint := 1 }
  placement := { active.placement with held := true, holder := some 13, longHold := ⟨true, false⟩ }
  condition := { ConditionUnit.initial .active with kill := some ⟨0, 0, 1, none⟩ } }

theorem test_long_hold_in_kill_met :
    heldInKill.working = true ∧ heldInKill.nothingWaits = true ∧ heldInKill.noStoreWait = true ∧
      heldInKill.shaper.op = none ∧ heldInKill.shaper.boxOp = none ∧ heldInKill.placement.longHold.running = true ∧
      heldInKill.tally.lines.all (fun r => r.state == .sent) = true ∧
      heldInKill.condition.reports.length + heldInKill.placement.unreported.length < 32 := by decide +kernel

/-- R156: the LONG HOLD takes the start index of the line that the kill opens at the next PARA. -/
theorem test_long_hold_in_kill :
    ((next? (exec .longHoldExpiry heldInKill)).map (completeItem 12 .para)).map (fun t =>
      (t.condition.reports, t.tally.lines.map (·.start))) = some ([⟨.longHold, 2, some 13⟩], [2]) := by decide +kernel

theorem test_held_muster_met :
    let h : HeldMuster := ⟨frameOf .muster 1 [1, 1, 0], some 0⟩
    let s := { activeWith [lineAt 1 5] with port := { active.port with heldMuster := some h } }
    s.working = true ∧ s.quiet = true ∧ h.frame.cls = .muster ∧ s.tally.openLine? = some (lineAt 1 5) ∧
      h.since ≠ some (lineAt 1 5).number ∧ s.hasRoom .tally .muster false = true := by decide +kernel

theorem test_pending_notice_met :
    let n : PendingNotice := ⟨⟨.copyGap, 0, 0, 0, some 12, 0⟩, 0⟩
    let s := { active with
      window := heldWindow [paraItem], splitter := { active.splitter with cutPoint := 1 },
      condition := { ConditionUnit.initial .active with notices := [n] } }
    s.working = true ∧ s.quiet = true ∧ s.window.para? n.after = some 0 ∧ s.hasRoom .notice .notice false = true := by decide +kernel

theorem test_long_hold_met :
    let s := active.withPlacement { active.placement with held := true, holder := some 13, longHold := ⟨true, false⟩ }
    s.working = true ∧ s.quiet = true ∧ s.placement.longHold.running = true ∧
      s.tally.lines.find? (fun x => x.state != .sent) = some (lineAt 0 0) ∧
      s.tally.inHand.all (fun x => !x.spans 0) = true ∧ s.window.behind 0 = false := by decide +kernel

/-- A hold that has run 30 s while line 0 stands DECIDED, its own verdict carried or not. -/
def heldDecided (carried : Bool) : State := { activeWith [{ decidedLine 0 0 1 with ownVerdict := carried }, lineAt 1 1] with
  placement := { active.placement with held := true, holder := some 13, longHold := ⟨true, false⟩ } }

theorem test_long_hold_decided_met :
    (heldDecided true).working = true ∧ (heldDecided true).quiet = true ∧ (heldDecided false).quiet = true ∧
      ((heldDecided true).tally.lines.find? (fun x => x.state != .sent)).map (·.start) = some 0 ∧
      ((heldDecided true).tally.inHand.find? (fun x => x.spans 0 && x.ownVerdict)).map (·.number) = some 0 ∧
      (heldDecided true).hasRoom .notice .notice false = true ∧
      (∀ x ∈ (heldDecided false).tally.inHand, x.spans 0 = true → x.ownVerdict = false) ∧
      (heldDecided false).window.behind 0 = false ∧ (heldDecided false).condition.reports.length < 32 ∧
      active.placement.longHold.running = false := by decide +kernel

/-- R156, R162: held against the oldest DECIDED line until its verdict is carried, and then reported at once, with code 6. -/
theorem test_long_hold_decided :
    (next? (exec .longHoldExpiry (heldDecided false))).map (·.condition.reports) = some [⟨.longHold, 0, some 13⟩] ∧
      (next? (exec .longHoldExpiry (heldDecided true))).map (fun t => t.port.tx.map (fun x => x.frame.payload)) =
        some [[6, 0, 0, 0, 0, 0, 0, 0, 1, 0x8d, 0]] := by decide +kernel

/-! ### Glyph store -/

theorem test_glyph_store_met :
    let s := oneSegment .waiting
    s.shaper.remainder = none ∧ s.shaper.held + s.shaper.reserved ≤ 768 ∧ (next? (exec .shapingStart s)).isSome = true ∧
      (match (runReader (shapeSegment s.readEnv (s.shapeInput (firstRecord s))) shapeWords).1 with
        | .ok res => res.glyphs.length
        | .error _ => 0) = (s.shapeInput (firstRecord s)).chars.length ∧
      (match (runReader (shapeBox boxDue.readEnv 0 (boxDue.window.chars 0 1)) (shapeWords.take 18 ++ [600, 0])).1 with
        | .ok res => res.glyphs.length
        | .error _ => 0) = 1 := by decide +kernel

/-- 4.7: a cut at record 4 of eight keeps four and adds the hyphen glyph. -/
theorem test_hyphen_cut :
    (firstPartGlyphs (List.replicate 8 (glyphOf 10 36 36)) ⟨.softHyphen, 4, 5, 0, some ⟨7, 20, 204⟩, none, 0⟩).length = 5 := by
  decide +kernel

/-! ### Encodings at the ends of their ranges -/

theorem test_round_trip_met :
    let v : VerdictMsg := ⟨65535, 1, 65535, 65535, .overset, 4294967295, 4294967295, 255, 65535, 65535, 65535, true, true, true⟩
    let o : TallyOpp := ⟨.softHyphen, 65534, 15, 16777215⟩
    let m : MeasureMsg := ⟨65535, 65535, 15, 16777215, 65535, true, 15, [o]⟩
    let e : PlaceEntry := ⟨4095, 15, 16383, -32768, 511, true, true, true, true⟩
    let p : PlaceMsg := ⟨65535, 1, 65535, true, List.replicate 6 e⟩
    RecallMsg.parse (RecallMsg.encode ⟨65535, 1, 65535, 255⟩) = some ⟨65535, 1, 65535, 255⟩ ∧
      VerdictMsg.parse v.encode = some v ∧ m.wellFormed = true ∧ MeasureMsg.parse m.encode = some m ∧
      PlaceMsg.parse p.encode = some p := by decide +kernel

/-- 12.2: a LONG HOLD, code 6, a benign trap, from external sender 15; the MUSTER of station 7 with 8 claims and the fallback flag. -/
theorem test_notice_muster_bytes :
    Notice.encode ⟨.longHold, 258, 772, 773, some 15, 255⟩ = [6, 0, 0, 1, 2, 3, 4, 3, 5, 0x8f, 255] ∧
      musterPayload 7 8 true = [7, 8, 1] := by decide +kernel

/-! ### Invariants: a step from a sound state -/

/-- A station that is sending, with a frame received and a trap held. -/
def busy : State := ({ sending (frameOf .notice 1 []) 0 with
  condition := { ConditionUnit.initial .active with reports := [⟨.overset, 0, none⟩] }
  port := { (sending (frameOf .notice 1 []) 0).port with rx := [frameOf .muster 2 [2, 0, 0]] } }).withPending [.musterFrame]

theorem test_bus_sound_met : busy.BusSound :=
  ⟨by decide +kernel, by decide +kernel, by decide +kernel, by decide +kernel, by decide +kernel, by decide +kernel,
    by decide +kernel⟩

theorem test_copy_sound_met : busy.CopySound := ⟨by decide +kernel, by decide +kernel⟩

theorem test_splitter_sound_met : busy.SplitterSound :=
  ⟨by decide +kernel, by decide +kernel, by decide +kernel, by decide +kernel⟩

theorem test_lists_sound_met : busy.ListsSound ∧ busy.RecordsSound :=
  ⟨⟨by decide +kernel, by decide +kernel⟩, ⟨by decide +kernel, by decide +kernel⟩⟩

theorem test_roster_sound_met : (busy.withTally { busy.tally with roster := [0, 7] }).RosterSound := by
  unfold State.RosterSound; decide +kernel

theorem test_lines_sound_met : (activeWith [decidedLine 0 0 1, { lineAt 1 1 with tally :=
    [.segment ⟨2, 1, 1, 0, 50, [], 0, 0, false, none⟩, .segment ⟨2, 2, 1, 0, 50, [], 0, 0, false, none⟩] }]).LinesSound :=
  ⟨by decide +kernel, by decide +kernel, by decide +kernel, by decide +kernel, by decide +kernel⟩

theorem test_step_met : (next? (step busy)).map (fun t => (t.tally.roster, t.port.rx, t.pending)) = some ([2], [], []) := by
  decide +kernel

end Sys2Proof.Tests
end

-- ==== proofs: what the shared operations leave still ====
section
/-! What the shared operations leave still: the station state, the kill, what the taken summary, the roster and the line
records hold, and the receive queue, all but for a withdrawal that begins. -/

namespace Sys2Proof.Machine

/-! ### The still part of a state -/

/-- What a raised condition, a freed slot or a settled line may change by beginning a withdrawal alone. -/
structure Still where
  state      : StationState
  kill       : Option KillInProgress
  killPeriod : Option LineNumber
  taken      : Option TakenSummary
  roster     : List Nat
  rx         : List Frame
  leaving    : Bool

def State.still (s : State) : Still :=
  ⟨s.condition.state, s.condition.kill, s.condition.killPeriod, s.tally.taken, s.tally.roster, s.port.rx,
    s.port.withdrawalPending⟩

/-- R112, R172: what the begin of a withdrawal makes of the still part. -/
def Still.withdraw (x : Still) : Still := { x with rx := x.rx.filter Frame.isClear, leaving := true }

/-- From `s` to `t` nothing of the still part changes, or a withdrawal begins at a working station. -/
def Steady (s t : State) : Prop := t.still = s.still ∨ (s.working = true ∧ t.still = s.still.withdraw)

/-- `Steady`, with every line record left as it is. -/
structure Settles (s t : State) : Prop where
  steady : Steady s t
  lines  : t.tally.lines = s.tally.lines

theorem working_eq_still (s : State) : s.working = (s.still.state == .active && !s.still.leaving) := rfl

theorem working_eq_of_still {s t : State} (h : t.still = s.still) : t.working = s.working := by
  rw [working_eq_still, working_eq_still, h]

theorem not_working_of_withdraw {s t : State} (h : t.still = s.still.withdraw) : t.working = false := by
  rw [working_eq_still, h]; simp [Still.withdraw]

theorem Steady.refl (s : State) : Steady s s := .inl rfl

/-- A withdrawal begins once: after it the station works no more. -/
theorem Steady.trans {s t u : State} (h : Steady s t) (g : Steady t u) : Steady s u := by
  rcases g with g | ⟨hw, g⟩
  · rcases h with h | ⟨hs, h⟩
    · exact .inl (g.trans h)
    · exact .inr ⟨hs, g.trans h⟩
  · rcases h with h | ⟨-, h⟩
    · exact .inr ⟨(working_eq_of_still h).symm.trans hw, g.trans (congrArg Still.withdraw h)⟩
    · exact absurd hw (by simp [not_working_of_withdraw h])

theorem Settles.refl (s : State) : Settles s s := ⟨.refl s, rfl⟩

theorem Settles.trans {s t u : State} (h : Settles s t) (g : Settles t u) : Settles s u :=
  ⟨h.steady.trans g.steady, g.lines.trans h.lines⟩

theorem Settles.of_still {s t : State} (h : t.still = s.still) (hl : t.tally.lines = s.tally.lines) : Settles s t :=
  ⟨.inl h, hl⟩

/-- Blocks that the still part does not read may be replaced before a settling operation. -/
theorem Settles.after {s t u : State} (g : Settles t u) (h : t.still = s.still) (hl : t.tally.lines = s.tally.lines) :
    Settles s u := (Settles.of_still h hl).trans g

theorem Settles.ite {p : Prop} [Decidable p] {s t u : State} (h : Settles s t) (g : Settles s u) :
    Settles s (if p then t else u) := by
  split
  · exact h
  · exact g

theorem Steady.foldl {α : Type} {f : State → α → State} (h : ∀ s x, Steady s (f s x)) (l : List α) (s : State) :
    Steady s (l.foldl f s) := by
  induction l generalizing s with
  | nil => exact .refl s
  | cons x l ih => exact (h s x).trans (ih _)

theorem Settles.foldl {α : Type} {f : State → α → State} (h : ∀ s x, Settles s (f s x)) (l : List α) (s : State) :
    Settles s (l.foldl f s) := by
  induction l generalizing s with
  | nil => exact .refl s
  | cons x l ih => exact (h s x).trans (ih _)

section
variable {s t : State}

theorem Steady.state (h : Steady s t) : t.condition.state = s.condition.state := by
  rcases h with h | ⟨-, h⟩ <;> exact congrArg Still.state h

theorem Steady.kill (h : Steady s t) : t.condition.kill = s.condition.kill := by
  rcases h with h | ⟨-, h⟩ <;> exact congrArg Still.kill h

theorem Steady.killPeriod (h : Steady s t) : t.condition.killPeriod = s.condition.killPeriod := by
  rcases h with h | ⟨-, h⟩ <;> exact congrArg Still.killPeriod h

theorem Steady.taken (h : Steady s t) : t.tally.taken = s.tally.taken := by
  rcases h with h | ⟨-, h⟩ <;> exact congrArg Still.taken h

theorem Steady.roster (h : Steady s t) : t.tally.roster = s.tally.roster := by
  rcases h with h | ⟨-, h⟩ <;> exact congrArg Still.roster h

/-- A station that still works has begun no withdrawal: it worked before, and its receive queue stands. -/
theorem Steady.rx_of_working (h : Steady s t) (hw : t.working = true) : s.working = true ∧ t.port.rx = s.port.rx := by
  rcases h with h | ⟨-, h⟩
  · exact ⟨(working_eq_of_still h).symm.trans hw, congrArg Still.rx h⟩
  · exact absurd hw (by simp [not_working_of_withdraw h])

end

/-! ### Queues, notices and conditions -/

theorem handOver_settles (who : Producer) (f : Frame) (s : State) : Settles s (handOver who f s) := by
  have hawait : (s.withPort (s.port.await who f)).still = s.still := by unfold BusPort.await; split <;> rfl
  rcases handOver_cases who f s with h | h | ⟨u, -, h⟩ <;> rw [h]
  · exact .refl s
  · exact .of_still hawait rfl
  · exact .of_still rfl rfl

theorem sendNotice_settles (n : Notice) (s : State) : Settles s (sendNotice n s) := handOver_settles ..

theorem sendAbortNotice_settles (n : Notice) (a : CopyIndex) (s : State) : Settles s (sendAbortNotice n a s) := by
  unfold sendAbortNotice
  split
  · exact sendNotice_settles ..
  · split
    · exact .of_still rfl rfl
    · exact .refl s

theorem releasePendingNotices_settles (s : State) : Settles s (releasePendingNotices s) :=
  (Settles.foldl (fun _ _ => sendAbortNotice_settles ..) _ _).after rfl rfl

theorem queueNoticesAt_settles (p : CopyIndex) (s : State) : Settles s (queueNoticesAt p s) :=
  (Settles.foldl (fun _ _ => sendNotice_settles ..) _ _).after rfl rfl

theorem raiseTrap_settles (t : Trap) (s : State) : Settles s (raiseTrap t s) := by
  unfold raiseTrap
  split
  · exact sendNotice_settles ..
  · split
    · exact sendNotice_settles ..
    · split
      · exact .of_still rfl rfl
      · exact .refl s

theorem reportTraps_settles (n : LineNumber) (holds : CopyIndex → Bool) (s : State) :
    Settles s (reportTraps n holds s) :=
  (Settles.foldl (fun _ _ => sendNotice_settles ..) _ _).after rfl rfl

theorem raiseNamedTrap_settles (t : Trap) (n : LineNumber) (s : State) : Settles s (raiseNamedTrap t n s) := by
  unfold raiseNamedTrap
  split
  · exact sendNotice_settles ..
  · exact .refl s

theorem sendRecall_settles (c : FrameClass) (r : LineRef) (k : CondCode) (s : State) :
    Settles s (sendRecall c r k s) := by
  unfold sendRecall
  split
  · exact .refl s
  · exact handOver_settles ..

theorem abandonShaping_settles (s : State) : Settles s (abandonShaping s) := by
  unfold abandonShaping
  split
  · exact .refl s
  · exact .of_still rfl rfl

theorem abandonBox_settles (s : State) : Settles s (abandonBox s) := .of_still rfl rfl

/-- The queue a withdrawal leaves, its NOTICE with it unless a CLEAR waits. -/
theorem withdraw_port (c : Cond) (cause : Nat) (s : State) :
    (withdraw c cause s).port.rx = s.port.rx.filter Frame.isClear ∧ (withdraw c cause s).port.withdrawalPending = true := by
  have hs : (abandonBox (abandonShaping s)).port = s.port := by
    unfold abandonBox abandonShaping
    split <;> rfl
  unfold withdraw
  dsimp only
  rw [hs]
  cases s.port.clearPending <;> exact ⟨rfl, rfl⟩

theorem withdraw_condition (c : Cond) (cause : Nat) (s : State) :
    (withdraw c cause s).condition = { s.condition with reports := [], notices := [] } := by
  have hs : (abandonBox (abandonShaping s)).condition = s.condition := by
    unfold abandonBox abandonShaping
    split <;> rfl
  rw [← hs]
  rfl

theorem withdraw_tally (c : Cond) (cause : Nat) (s : State) :
    (withdraw c cause s).tally = { s.tally with coverage := .idle, verdictWait := ⟨none, none⟩ } := by
  have hs : (abandonBox (abandonShaping s)).tally = s.tally := by
    unfold abandonBox abandonShaping
    split <;> rfl
  rw [← hs]
  rfl

/-- R112, R172: a withdrawal keeps the CLEARs received and the line records. -/
theorem withdraw_settles {s : State} (hw : s.working = true) (c : Cond) (cause : Nat) :
    Settles s (withdraw c cause s) := by
  obtain ⟨hrx, hleaving⟩ := withdraw_port c cause s
  refine ⟨.inr ⟨hw, ?_⟩, by rw [withdraw_tally]⟩
  simp only [State.still, Still.withdraw, hrx, hleaving, withdraw_condition, withdraw_tally]

theorem raiseFault_settles (c : Cond) (s : State) : Settles s (raiseFault c s) := by
  unfold raiseFault
  split
  · exact sendNotice_settles ..
  · exact (Settles.ite (sendRecall_settles ..) (.refl s)).trans (sendNotice_settles ..)

theorem raiseAbort_settles (c : Cond) (s : State) : Settles s (raiseAbort c s) := by
  unfold raiseAbort
  split
  · exact sendAbortNotice_settles ..
  · exact (Settles.ite (.refl s) (sendRecall_settles ..)).trans (sendAbortNotice_settles ..)

theorem advanceChoices_settles (r : Option LineRef) (s : State) : Settles s (advanceChoices r s) := by
  unfold advanceChoices
  split
  · exact .of_still rfl rfl
  · exact .refl s

/-- A raised condition begins a withdrawal or leaves the still part and the lines as they are. -/
theorem raise_settles (c : Cond) (s : State) : Settles s (raise c s) := by
  unfold raise
  split
  next hw =>
    split
    · exact withdraw_settles hw ..
    · split
      · exact withdraw_settles hw ..
      · split
        · exact raiseTrap_settles ..
        · exact (raiseFault_settles ..).trans (advanceChoices_settles ..)
        · exact (raiseAbort_settles ..).trans (advanceChoices_settles ..)
        · exact (raiseAbort_settles ..).trans (advanceChoices_settles ..)
  · exact .refl s

/-! ### The shaper and the cutter -/

theorem checkStoreFull_settles (i : CopyIndex) (n : Nat) (s : State) : Settles s (checkStoreFull i n s) := by
  unfold checkStoreFull
  split
  · exact raise_settles ..
  · exact .refl s

theorem checkWaitingStore_settles (s : State) : Settles s (checkWaitingStore s) := by
  have own : ∀ x : Option SegRecord,
      Settles s (match x with | some r => checkStoreFull r.start r.charCount s | none => s) := by
    intro x
    cases x with
    | none => exact .refl s
    | some r => exact checkStoreFull_settles ..
  unfold checkWaitingStore
  dsimp only
  split
  · exact (own _).trans (checkStoreFull_settles ..)
  · exact own _

theorem startNextRead_settles (s : State) : Settles s (startNextRead s) := .of_still rfl rfl

theorem startMeasure_settles (s : State) : Settles s (startMeasure s) := by
  unfold startMeasure
  split
  · exact .refl s
  · split
    · exact .of_still rfl rfl
    · split
      · exact .of_still rfl rfl
      · exact .refl s

theorem restartShaping_settles (s : State) : Settles s (restartShaping s) := by
  unfold restartShaping
  split
  · exact .refl s
  · exact .of_still rfl rfl

theorem withCartridge_settles (s : State) (x : CartridgePort) : Settles s (s.withCartridge x) := .of_still rfl rfl

theorem withShaper_settles (s : State) (x : Shaper) : Settles s (s.withShaper x) := .of_still rfl rfl

theorem withPlacement_settles (s : State) (x : PlacementUnit) : Settles s (s.withPlacement x) := .of_still rfl rfl

theorem shapingViolation_settles (b : CopyIndex) (k : Nat) (i : CopyIndex) (s : State) :
    Settles s (shapingViolation b k i s) := by
  have h := (withCartridge_settles s (s.cartridge.markUnusable k)).trans
    (raise_settles ⟨.cartridgeAddress, i, b, none, none, some b⟩ _)
  unfold shapingViolation
  dsimp only
  split
  · exact (h.trans (raise_settles ..)).trans (restartShaping_settles _)
  · exact h.trans (restartShaping_settles _)

theorem resumeShaping_settles (n : Nat) (s : State) : Settles s (resumeShaping n s) := by
  induction n generalizing s with
  | zero => exact .refl s
  | succ n ih =>
    unfold resumeShaping
    split
    · exact .refl s
    · exact (shapingViolation_settles ..).trans (ih _)
    · exact raise_settles ..
    · exact withCartridge_settles ..
    · exact .refl s

theorem resumeBox_settles (s : State) : Settles s (resumeBox s) := by
  unfold resumeBox
  split
  · exact .refl s
  next op _ slot item _ _ =>
    have h := (withCartridge_settles s (s.cartridge.markUnusable slot)).trans
      (raise_settles ⟨.cartridgeAddress, item, op.start, none, none, some op.start⟩ _)
    dsimp only
    split
    · exact ((h.trans (restartShaping_settles _)).trans (resumeShaping_settles ..)).trans (raise_settles ..)
    · exact h.trans (raise_settles ..)
  · exact raise_settles ..
  · exact withCartridge_settles ..
  · exact .refl s

theorem beginShaping_settles (r : SegRecord) (s : State) : Settles s (beginShaping r s) :=
  (withShaper_settles ..).trans (resumeShaping_settles ..)

theorem beginBox_settles (b : BoxRecord) (s : State) : Settles s (beginBox b s) :=
  (withShaper_settles ..).trans (resumeBox_settles _)

theorem grantShaping_settles (s : State) : Settles s (grantShaping s) := by
  unfold grantShaping
  split
  · split
    · exact beginShaping_settles ..
    · exact .refl s
  · exact .refl s

theorem grantBox_settles (s : State) : Settles s (grantBox s) := by
  unfold grantBox
  split
  · split
    · exact beginBox_settles ..
    · exact .refl s
  · exact .refl s

theorem grantStore_settles (s : State) : Settles s (grantStore s) := by
  have hc : Settles s (s.withChoices (s.choices + 1)) := .of_still rfl rfl
  unfold grantStore
  split
  · dsimp only
    split
    · exact (hc.trans (grantBox_settles _)).trans (grantShaping_settles _)
    · exact (hc.trans (grantShaping_settles _)).trans (grantBox_settles _)
  · exact (grantShaping_settles _).trans (grantBox_settles _)

theorem startShaping_settles (s : State) : Settles s (startShaping s) := by
  unfold startShaping
  split
  · split
    · exact .refl s
    · split
      · exact beginShaping_settles ..
      · exact (withShaper_settles ..).trans (checkStoreFull_settles ..)
  · exact .refl s

theorem startBox_settles (s : State) : Settles s (startBox s) := by
  unfold startBox
  split
  · split
    · exact .refl s
    · dsimp only
      split
      · exact (withShaper_settles ..).trans (beginBox_settles ..)
      · exact (withShaper_settles ..).trans (checkStoreFull_settles ..)
  · exact .refl s

theorem publishRecord_settles (r : SegRecord) (s : State) : Settles s (publishRecord r s) :=
  (handOver_settles ..).trans (withShaper_settles ..)

theorem publishBox_settles (b : BoxRecord) (s : State) : Settles s (publishBox b s) :=
  (handOver_settles ..).trans (withShaper_settles ..)

theorem raiseMisses_settles (l : List CopyIndex) (s : State) : Settles s (raiseMisses l s) :=
  Settles.foldl (fun _ _ => raise_settles ..) l s

theorem completeShaping_settles (s : State) : Settles s (completeShaping s) := by
  unfold completeShaping
  split
  · split
    · split
      · dsimp only
        split
        · exact (publishRecord_settles ..).after rfl rfl
        · exact ((raiseMisses_settles ..).trans (publishRecord_settles ..)).after rfl rfl
      · exact .refl s
    · exact .refl s
  · exact .refl s

theorem completeBox_settles (s : State) : Settles s (completeBox s) := by
  unfold completeBox
  split
  · split
    · split
      · exact (publishBox_settles ..).after rfl rfl
      · exact .refl s
    · exact .refl s
  · exact .refl s

theorem placeRemainder_settles (s : State) : Settles s (placeRemainder s) := by
  unfold placeRemainder
  split
  · split
    · exact withShaper_settles ..
    · exact .refl s
  · exact .refl s

theorem cutSegment_settles (n : LineNumber) (i : CopyIndex) (o : TallyOpp) (s : State) :
    Settles s (cutSegment n i o s) := by
  unfold cutSegment
  split
  · split
    · split
      · exact (withShaper_settles ..).trans (placeRemainder_settles _)
      · exact .refl s
    · exact .refl s
  · exact .refl s

theorem runCutter_settles (n : Nat) (s : State) : Settles s (runCutter n s) := by
  induction n generalizing s with
  | zero => exact .refl s
  | succ n ih =>
    unfold runCutter
    dsimp only
    split
    · split
      · split
        · exact (ih _).after rfl rfl
        · exact .of_still rfl rfl
      · split
        · exact (ih _).after rfl rfl
        · exact .refl s
    · exact .refl s

theorem resumeCutting_settles (s : State) : Settles s (resumeCutting s) := runCutter_settles ..

/-! ### The placement unit and what a freeing sets going -/

theorem pumpFrames_settles (n : Nat) (s : State) : Settles s (pumpFrames n s) := by
  induction n generalizing s with
  | zero => exact .refl s
  | succ n ih =>
    unfold pumpFrames
    split
    · split
      · exact .refl s
      · exact ((withPlacement_settles ..).trans (handOver_settles ..)).trans (ih _)
    · exact .refl s

theorem pump_settles (s : State) : Settles s (pump s) := pumpFrames_settles ..

theorem enterWaiting_settles (w : WaitingFrame) (s : State) : Settles s (enterWaiting w s) := by
  unfold enterWaiting
  split
  · exact .refl s
  · dsimp only
    split
    · exact .of_still rfl rfl
    · exact .of_still rfl rfl
    · exact (pump_settles _).after rfl rfl
    · exact .of_still rfl rfl
    · exact .of_still rfl rfl
    · exact .of_still rfl rfl

theorem settleFrames_settles (n : Nat) (s : State) : Settles s (settleFrames n s) := by
  induction n generalizing s with
  | zero => exact .refl s
  | succ n ih =>
    unfold settleFrames
    split
    · exact (enterWaiting_settles ..).trans (ih _)
    · exact .refl s

theorem settleSlots_settles (s : State) : Settles s (settleSlots s) := settleFrames_settles ..

theorem settle_settles (s : State) : Settles s (settle s) :=
  (settleSlots_settles s).trans <| (placeRemainder_settles _).trans <| (resumeCutting_settles _).trans <|
    (grantStore_settles _).trans <| (startMeasure_settles _).trans (startNextRead_settles _)

/-- What an event sets going in the other blocks leaves the still part and the lines, but for a withdrawal. -/
theorem finish_settles (s : State) : Settles s (finish s) := by
  unfold finish
  split
  · exact (settle_settles s).trans (pump_settles _)
  · exact startNextRead_settles s

theorem settleFreed_settles (s : State) : Settles s (settleFreed s) := by
  unfold settleFreed
  split
  · exact settle_settles s
  · exact .refl s

theorem freeSegments_settles (e : CopyIndex) (s : State) : Settles s (freeSegments e s) :=
  (Settles.ite (abandonShaping_settles _) (.refl _)).trans <|
    (Settles.ite (abandonBox_settles _) (.refl _)).trans (withShaper_settles ..)

theorem killSegments_settles (e : CopyIndex) (s : State) : Settles s (killSegments e s) :=
  (Settles.ite (abandonShaping_settles _) (.refl _)).trans <|
    (Settles.ite (abandonBox_settles _) (.refl _)).trans (withShaper_settles ..)

/-! ### The tally unit -/

/-- A change of the line records, the scan's timers and the fence alone. -/
theorem withTally_steady {s : State} {x : TallyUnit} (ht : x.taken = s.tally.taken) (hr : x.roster = s.tally.roster) :
    Steady s (s.withTally x) := .inl (by simp only [State.still, State.withTally, ht, hr])

theorem requeueHeldMuster_settles (s : State) : Settles s (requeueHeldMuster s) := by
  unfold requeueHeldMuster
  split
  · exact (handOver_settles ..).after rfl rfl
  · exact .refl s

theorem queueMuster_settles (s : State) : Settles s (queueMuster s) := (handOver_settles ..).after rfl rfl

/-- R116: the line that opens is the last record. -/
theorem openLine_lines (r : LineRecord) (s : State) : (openLine r s).tally.lines = s.tally.lines ++ [r] := by
  unfold openLine
  dsimp only
  split
  · exact (requeueHeldMuster_settles _).lines
  · rfl

theorem openLine_steady (r : LineRecord) (s : State) : Steady s (openLine r s) := by
  have h : Steady s (s.withTally { s.tally with lines := s.tally.lines ++ [r] }) := withTally_steady rfl rfl
  unfold openLine
  dsimp only
  split
  · exact h.trans (requeueHeldMuster_settles _).steady
  · exact h

theorem checkGapMark_steady (s : State) : Steady s (checkGapMark s) := by
  unfold checkGapMark
  split
  · split
    · exact (withTally_steady rfl rfl).trans (Steady.foldl (fun _ _ => (raise_settles ..).steady) _ _)
    · exact .refl s
  · exact .refl s

theorem runScan_steady (s : State) : Steady s (runScan s) := by
  unfold runScan
  split
  · dsimp only
    split
    · exact (withTally_steady rfl rfl).trans (raise_settles ..).steady
    · exact withTally_steady rfl rfl
  · exact .refl s

theorem compareVerdict_settles (r : LineRecord) (n : Nat) (f : Figures) (s : State) :
    Settles s (compareVerdict r n f s) := by
  unfold compareVerdict
  split
  · exact .refl s
  · exact raise_settles ..

theorem raiseOverset_settles (r : LineRecord) (b : Break) (s : State) : Settles s (raiseOverset r b s) := by
  unfold raiseOverset
  split
  · exact raise_settles ..
  · exact .refl s

theorem raiseLoose_settles (r : LineRecord) (t : Setting) (s : State) : Settles s (raiseLoose r t s) := by
  unfold raiseLoose
  split
  · exact raise_settles ..
  · exact .refl s

theorem cutAtBreak_settles (r : LineRecord) (b : Break) (s : State) : Settles s (cutAtBreak r b s) := by
  unfold cutAtBreak
  split
  · split
    · exact cutSegment_settles ..
    · exact .refl s
  · exact .refl s

theorem placeDecided_steady (r : LineRecord) (t : Setting) (s : State) : Steady s (placeDecided r t s) := .inl rfl

/-- R126, R127: a decision rewrites the lines and may begin a withdrawal. -/
theorem decideLine_steady (r : LineRecord) (p : LineParams) (s : State) : Steady s (decideLine r p s) := by
  unfold decideLine
  extract_lets b st d s1 s2 lost s3 s4 s5 s6 s7
  have h1 : Steady s s1 := withTally_steady (by unfold TallyUnit.unfence; split <;> rfl) (by unfold TallyUnit.unfence; split <;> rfl)
  have h2 : Steady s1 s2 := (cutAtBreak_settles ..).steady
  have h3 : Steady s2 s3 := (handOver_settles ..).steady
  have h4 : Steady s3 s4 := (placeDecided_steady ..).trans ((pump_settles _).steady.trans (openLine_steady ..))
  have h5 : Steady s4 s5 := ((raiseOverset_settles ..).trans (raiseLoose_settles ..)).steady
  have h6 : Steady s5 s6 := (Settles.foldl (fun _ _ => raise_settles ..) _ _).steady
  have h7 : Steady s6 s7 := (Settles.foldl (fun _ _ => compareVerdict_settles ..) _ _).steady
  exact h1.trans <| h2.trans <| h3.trans <| h4.trans <| h5.trans <| h6.trans <| h7.trans <|
    (Settles.ite (checkWaitingStore_settles _) (.refl _)).steady

theorem decideIfDue_steady (s : State) : Steady s (decideIfDue s) := by
  unfold decideIfDue
  split
  · split
    · split
      · exact decideLine_steady ..
      · exact .refl s
    · exact .refl s
  · exact .refl s

theorem tallyRound_steady (s : State) : Steady s (tallyRound s) :=
  (checkGapMark_steady s).trans <| (runScan_steady _).trans (decideIfDue_steady _)

theorem timeCoverage_settles (s : State) (b : Option (LineNumber × CopyIndex)) :
    Settles s (s.withTally (s.tally.timeCoverage b)) := by
  unfold TallyUnit.timeCoverage
  split
  · exact .of_still rfl rfl
  · split
    · exact .of_still rfl rfl
    · exact .of_still rfl rfl

/-- The scan and the decisions it leads to leave the still part, but for a withdrawal. -/
theorem settleTally_steady (s : State) : Steady s (settleTally s) := by
  have rounds := (tallyRound_steady s).trans <| (tallyRound_steady _).trans (tallyRound_steady _)
  unfold settleTally
  split
  · dsimp only
    split
    · exact rounds.trans (timeCoverage_settles ..).steady
    · exact rounds
  · exact .refl s

/-! ### A tally with no open line -/

/-- With no line open there is nothing to check, to scan or to decide. -/
theorem tallyRound_noOpen {s : State} (h : s.tally.openLine? = none) : tallyRound s = s := by
  simp [tallyRound, checkGapMark, runScan, decideIfDue, h]

/-- With no line open the line records stand. -/
theorem settleTally_noOpen {s : State} (h : s.tally.openLine? = none) : Settles s (settleTally s) := by
  unfold settleTally
  simp only [tallyRound_noOpen h]
  split
  · exact timeCoverage_settles ..
  · exact .refl s

end Sys2Proof.Machine
end

-- ==== proofs: power-on and the bounds of the reset state ====
section
/-! The statements about the machine right after reset. -/

namespace Sys2Proof.Machine

/-- Settles O3: both commands build the power-on state block by block. -/
theorem powerAndResetLine : Obligations.PowerAndResetLine := by
  unfold Obligations.PowerAndResetLine
  intro s
  exact ⟨rfl, rfl, rfl, rfl, rfl, rfl, rfl, rfl, rfl, rfl, rfl, rfl, rfl, rfl⟩

theorem busSound_reset : State.reset.BusSound where
  ordinary := by decide
  urgent := by decide
  order := .nil
  receive := by decide
  flight := by decide
  clear := rfl
  leaving _ _ := rfl

theorem copySound_reset : State.reset.CopySound := ⟨by decide, by decide⟩

theorem splitterSound_reset : State.reset.SplitterSound := ⟨by decide, by decide, by decide, by decide⟩

theorem rosterSound_reset : State.reset.RosterSound := ⟨.nil, by decide⟩

/-- Settles O56: the queues, the window, the stack and the lists are empty at reset. -/
theorem resetIsSound : Obligations.ResetIsSound :=
  ⟨busSound_reset, copySound_reset, splitterSound_reset, rosterSound_reset,
    ⟨by decide, by decide⟩, ⟨by decide, by decide⟩⟩

end Sys2Proof.Machine
end

-- ==== proofs: the copy decoder and a completed item ====
section
/-! The copy decoder, the item a copy byte completes, and a COPY frame at the head of the receive queue. -/

namespace Sys2Proof.Machine

/-! ### Copy bytes (R3 to R9) -/

/-- R9: FILL and the unassigned bytes wait for no operand. -/
theorem operandBytes_fill {b : Nat} (h : b = 0 ∨ (0x11 ≤ b ∧ b ≤ 0x1F)) : operandBytes b = 0 := by
  unfold operandBytes
  split_ifs <;> omega

/-- R9: FILL and the unassigned bytes complete no item. -/
theorem plainItem_fill (page : Nat) {b : Nat} (h : b = 0 ∨ (0x11 ≤ b ∧ b ≤ 0x1F)) : plainItem page b = none := by
  unfold plainItem
  grind

/-- R4: the bytes of the page's characters wait for no operand. -/
theorem operandBytes_character {b : Nat} (h1 : 0x20 ≤ b) (h2 : b ≤ 0xEF) : operandBytes b = 0 := by
  unfold operandBytes
  split_ifs <;> omega

/-- R4: a byte of the page's characters completes its character. -/
theorem plainItem_character (page : Nat) {b : Nat} (h1 : 0x20 ≤ b) (h2 : b ≤ 0xEF) :
    plainItem page b = some (.character (page * 256 + b)) := by
  unfold plainItem
  grind

/-- R3: a lead byte with no operand completes its item at once. -/
theorem byte_plain {d : Decoder} {b : Byte} (hl : d.lead = none) (h : operandBytes b.toNat = 0) :
    d.byte b = d.complete (plainItem d.pageBase b.toNat) := by
  simp [Decoder.byte, hl, h]

/-- R4: a completed item leaves the sequence number and the gap marks that wait for the next item. -/
theorem complete_keeps (d : Decoder) (x : Option ItemBody) :
    (d.complete x).1.lastSeq = d.lastSeq ∧ (d.complete x).1.markNext = d.markNext := by
  unfold Decoder.complete
  dsimp only
  split <;> exact ⟨rfl, rfl⟩

/-- R3: a copy byte leaves the sequence number. -/
theorem byte_lastSeq (d : Decoder) (b : Byte) : (d.byte b).1.lastSeq = d.lastSeq := by
  unfold Decoder.byte
  split
  · split
    · exact (complete_keeps ..).1
    · rfl
  · split
    · rfl
    · exact (complete_keeps ..).1
  · exact (complete_keeps ..).1

/-- R9: a decoder that waits for no operand passes over FILL and the unassigned bytes. -/
theorem byte_fill {d : Decoder} {b : Byte} (hl : d.lead = none) (ho : d.operand = none)
    (h : b.toNat = 0 ∨ (0x11 ≤ b.toNat ∧ b.toNat ≤ 0x1F)) : d.byte b = (d, none) := by
  rw [byte_plain hl (operandBytes_fill h), plainItem_fill _ h]
  cases d
  simp_all [Decoder.complete]

/-- R4: a byte of the page's characters completes its character, and no operand waits. -/
theorem byte_character {d : Decoder} {b : Byte} (hl : d.lead = none) (h1 : 0x20 ≤ b.toNat) (h2 : b.toNat ≤ 0xEF) :
    d.byte b = ({ d with operand := none }, some (.character (d.pageBase * 256 + b.toNat))) := by
  rw [byte_plain hl (operandBytes_character h1 h2), plainItem_character _ h1 h2]
  simp [Decoder.complete, hl]

/-- Settles O13: the byte completes nothing and leaves the decoder as it is. -/
theorem fillIsIgnored : Obligations.FillIsIgnored := by
  unfold Obligations.FillIsIgnored
  intro s sender b rest hd hl ho hb
  rw [decodeBytes, if_pos hd, byte_fill hl ho hb]
  rfl

/-! ### The sequence number (R17) -/

theorem sequence_lastSeq (d : Decoder) (q : BitVec 16) : (d.sequence q).lastSeq = some q := by
  unfold Decoder.sequence
  split <;> rfl

/-- R17: a frame in sequence leaves the pending lead. -/
theorem sequence_of_inSequence {d : Decoder} {q : BitVec 16} (h : d.inSequence q = true) :
    d.sequence q = { d with lastSeq := some q } := by
  simp [Decoder.sequence, h]

/-- R17: a copy gap drops the pending lead and its operands. -/
theorem sequence_of_gap {d : Decoder} {q : BitVec 16} (h : d.inSequence q = false) :
    d.sequence q = { d with lastSeq := some q, lead := none, operand := none } := by
  simp [Decoder.sequence, h]

/-! ### The decoder and the shared operations -/

theorem decoder_of_fixed {s t : State} (h : t.fixed = s.fixed) : t.decoder = s.decoder := congrArg Fixed.decoder h

theorem decoder_of_calm {s t : State} (h : t.calm = s.calm) : t.decoder = s.decoder := decoder_of_fixed (fixed_of_calm h)

@[simp] theorem queueNoticesAt_calm (p : CopyIndex) (s : State) : (queueNoticesAt p s).calm = s.calm :=
  (foldl_keeps State.calm _ (fun _ _ => sendNotice_calm ..) _ _).trans rfl

@[simp] theorem noteJoinedPara_calm (p : CopyIndex) (s : State) : (noteJoinedPara p s).calm = s.calm :=
  (queueNoticesAt_calm ..).trans rfl

@[simp] theorem raiseRefused_calm (n : Nat) (b : ItemBody) (u s : State) : (raiseRefused n b u s).calm = s.calm := by
  unfold raiseRefused
  split
  · exact raise_calm ..
  · rfl

/-- R169: a kill's end touches the copy window alone of what the shared operations leave: killed items at the old end leave. -/
theorem endKill_calm (k : KillInProgress) (p : CopyIndex) (s : State) :
    (endKill k p s).calm = (s.fixed, s.window.purge) := by
  have before (u : State) (r : LineRecord) : (releasePendingNotices (openLine r u)).calm = u.calm := by simp
  unfold endKill State.calm
  simp only [withWindow_fixed, State.withWindow_window, fixed_of_calm (before ..), window_of_calm (before ..)]
  rfl

/-- R15, R169: while no kill is in progress there is none to end. -/
theorem endKillIfDue_noKill {s : State} (h : s.condition.kill = none) : endKillIfDue s = s := by
  simp [endKillIfDue, h]

/-- R14, R169: while a kill is in progress killed items at the old end leave the window, its PARA held or not. -/
theorem endKillIfDue_calm {s : State} {k : KillInProgress} (h : s.condition.kill = some k) :
    (endKillIfDue s).calm = (s.fixed, s.window.purge) := by
  unfold endKillIfDue
  rw [h]
  dsimp only
  split
  · exact endKill_calm ..
  · rfl

theorem endKillIfDue_fixed (s : State) : (endKillIfDue s).fixed = s.fixed := by
  cases h : s.condition.kill with
  | none => rw [endKillIfDue_noKill h]
  | some k => exact congrArg Prod.fst (endKillIfDue_calm h)

/-! ### A completed item (R10) -/

/-- R10: what follows the joining of an item in the other blocks leaves the fixed part. -/
theorem completeItem_fixed (sender : Nat) (body : ItemBody) (s : State) :
    (completeItem sender body s).fixed = (joinWindow body (makeRoom s)).fixed := by
  unfold completeItem
  extract_lets s1 s2 s3
  have h2 : s2.calm = (joinWindow body s1).calm := raiseRefused_calm ..
  have h3 : s3.calm = s2.calm := by
    unfold s3
    split
    · exact noteJoinedPara_calm ..
    · rfl
  calc (settleTally (resumeCutting (endKillIfDue s3))).fixed
      = (endKillIfDue s3).fixed := fixed_of_calm ((settleTally_calm _).trans (resumeCutting_calm _))
    _ = s3.fixed := endKillIfDue_fixed s3
    _ = (joinWindow body s1).fixed := fixed_of_calm (h3.trans h2)

/-- R13: dropping the oldest item of a LISTENING station's full window leaves the decoder. -/
theorem makeRoom_fixed (s : State) : (makeRoom s).fixed = s.fixed := by
  unfold makeRoom
  split <;> rfl

theorem completeItem_lastSeq (sender : Nat) (body : ItemBody) (s : State) :
    (completeItem sender body s).decoder.lastSeq = s.decoder.lastSeq := by
  rw [decoder_of_fixed (completeItem_fixed ..), ← decoder_of_fixed (makeRoom_fixed s)]
  rfl

/-- R2: decoding copy bytes leaves the sequence number. -/
theorem decodeBytes_lastSeq (sender : Nat) (bs : List Byte) (s : State) :
    (decodeBytes sender bs s).decoder.lastSeq = s.decoder.lastSeq := by
  induction bs generalizing s with
  | nil => rfl
  | cons b rest ih =>
    have hb := byte_lastSeq s.decoder b
    unfold decodeBytes
    split
    · split
      next d heq => rw [ih, State.withDecoder_decoder, ← hb, heq]
      next d body heq => rw [ih, completeItem_lastSeq, State.withDecoder_decoder, ← hb, heq]
    · rfl

/-! ### A copy gap (R18, R19) -/

/-- R18: a gap mark goes to a held item or waits for the next one; the sequence number stands. -/
theorem placeGapMark_lastSeq (p : CopyIndex) (g : GapNote) (empty : Bool) (s : State) :
    (placeGapMark p g empty s).decoder.lastSeq = s.decoder.lastSeq := by
  unfold placeGapMark
  split_ifs <;> rfl

theorem activeGap_lastSeq (sender : Nat) (empty : Bool) (s : State) :
    (activeGap sender empty s).decoder.lastSeq = s.decoder.lastSeq := by
  unfold activeGap
  dsimp only
  split
  · rw [decoder_of_calm (raise_calm ..)]
  · split
    · rfl
    · split
      · rw [decoder_of_calm (raise_calm ..)]
      · exact placeGapMark_lastSeq ..

theorem checkSequence_lastSeq (sender : Nat) (payload : List Byte) (s : State) :
    (checkSequence sender payload s).decoder.lastSeq = some (wordField payload 0) := by
  unfold checkSequence
  dsimp only
  split
  · exact sequence_lastSeq ..
  · split
    · exact sequence_lastSeq ..
    · exact (activeGap_lastSeq ..).trans (sequence_lastSeq ..)

/-- R17: a frame in sequence changes the decoder's sequence number alone before it is decoded. -/
theorem checkSequence_inSequence {sender : Nat} {payload : List Byte} {s : State}
    (h : s.decoder.inSequence (wordField payload 0) = true) :
    checkSequence sender payload s = s.withDecoder { s.decoder with lastSeq := some (wordField payload 0) } := by
  simp [checkSequence, h, sequence_of_inSequence h]

/-! ### A frame at the head of the receive queue (R101) -/

section
variable (s : State)

@[simp] theorem popped_decoder : s.popped.decoder = s.decoder := rfl
@[simp] theorem popped_window : s.popped.window = s.window := rfl
@[simp] theorem popped_splitter : s.popped.splitter = s.splitter := rfl
@[simp] theorem popped_tally : s.popped.tally = s.tally := rfl
@[simp] theorem popped_condition : s.popped.condition = s.condition := rfl
@[simp] theorem popped_working : s.popped.working = s.working := rfl

end

/-- The head of the queue, when it is of the class and the station takes it, is removed and handled. -/
theorem takeHead_popped {c : FrameClass} {act : Frame → State → State} {s : State} {f : Frame} {rest : List Frame}
    (hr : s.port.rx = f :: rest) (hc : f.cls = c) (ht : s.takes = true) :
    takeHead c act s = finish (act f s.popped) := by
  rw [takeHead_handles hr hc ht, State.popped, hr]
  rfl

/-- R101: a working station takes frames. -/
theorem takes_of_working {s : State} (h : s.working = true) : s.takes = true := by simp [State.takes, h]

/-- R2: the COPY frame at the head is decoded as one event, at a station that takes it. -/
theorem exec_copyFrame {s : State} {f : Frame} {rest : List Frame} (ht : s.takes = true) (hr : s.port.rx = f :: rest)
    (hc : f.cls = .copy) :
    exec .copyFrame s = .next (finish (decodeCopy f s.popped)) :=
  congrArg Host.Outcome.next (takeHead_popped hr hc ht)

/-- Settles O11: neither decoding nor what it sets going changes the sequence number that the sequence check leaves. -/
theorem copySequenceTaken : Obligations.CopySequenceTaken := by
  unfold Obligations.CopySequenceTaken
  intro s f rest ht hr hc
  refine ⟨_, exec_copyFrame ht hr hc, fun hlen => ?_, fun hlen => ?_⟩
  · rw [decoder_of_calm (finish_calm _), decodeCopy, if_neg (by omega), decodeBytes_lastSeq, checkSequence_lastSeq]
  · rw [decodeCopy, if_pos hlen]
    exact ⟨decoder_of_calm (finish_calm _), window_of_calm (finish_calm _)⟩

/-- R19: a LISTENING station's window empties at its next index. -/
theorem leaveN_all (w : Window) : (Window.leaveN w.count w).items = [] :=
  List.eq_nil_of_length_eq_zero ((Window.leaveN_count _ w).trans (Nat.sub_self _))

/-- Settles O12: the frame has no copy bytes, so the gap is all of its effect. -/
theorem listeningGap_empties_window : Obligations.ListeningGap := by
  unfold Obligations.ListeningGap
  intro s f rest q1 q0 hs hr hc hp hq
  have ht : s.takes = true := by simp [State.takes, hs]
  have hdec : decodeCopy f s.popped = listeningGap (s.popped.withDecoder (s.decoder.sequence (wordField f.payload 0))) := by
    have hseq : checkSequence f.sender f.payload s.popped =
        listeningGap (s.popped.withDecoder (s.decoder.sequence (wordField f.payload 0))) := by
      simp [checkSequence, hq, hs]
    rw [decodeCopy, if_neg (by simp [hp]), hseq]
    simp [hp, copyBytes, decodeBytes]
  have hidle : (listeningGap (s.popped.withDecoder (s.decoder.sequence (wordField f.payload 0)))).working = false := by
    simp [listeningGap, State.working, hs]
  refine ⟨_, exec_copyFrame ht hr hc, ?_⟩
  rw [hdec, finish, if_neg (by simp [hidle]), sequence_of_gap hq]
  exact ⟨leaveN_all s.window, Window.leaveN_next _ s.window, rfl, rfl, rfl⟩

/-! ### A character of the page (R4, R10) -/

/-- R10, R13: a character completed outside a kill, with room in the window, joins the window and is all that changes there. -/
theorem completeItem_character {sender code : Nat} {s : State} (hroom : s.window.count < windowSize)
    (hk : s.condition.kill = none) :
    (completeItem sender (.character code) s).calm = (joinWindow (.character code) s).calm := by
  have hm : makeRoom s = s := if_neg (by omega)
  have hr : raiseRefused sender (.character code) s (joinWindow (.character code) s) = joinWindow (.character code) s := rfl
  unfold completeItem
  simp only [hm, hr, reduceCtorEq, if_false, settleTally_calm, resumeCutting_calm]
  rw [endKillIfDue_noKill (s := joinWindow (.character code) s) hk]

/-- R2, R4, R17: a frame in sequence whose one copy byte is a character of the page completes that character. -/
theorem decodeCopy_character {s : State} {f : Frame} {q1 q0 b : Byte} (hd : s.decodes = true)
    (hp : f.payload = [q1, q0, b]) (hq : s.decoder.inSequence (wordField f.payload 0) = true)
    (hl : s.decoder.lead = none) (h1 : 0x20 ≤ b.toNat) (h2 : b.toNat ≤ 0xEF) :
    decodeCopy f s = completeItem f.sender (.character (s.decoder.pageBase * 256 + b.toNat))
      (s.withDecoder { s.decoder with lastSeq := some (wordField f.payload 0), operand := none }) := by
  have hbytes : copyBytes f.payload = [b] := by simp [hp, copyBytes, frameItems]
  have hdec : (s.withDecoder { s.decoder with lastSeq := some (wordField f.payload 0) }).decodes = true := hd
  rw [decodeCopy, if_neg (by simp [hp]), checkSequence_inSequence hq, hbytes, decodeBytes, if_pos hdec,
    State.withDecoder_decoder, byte_character (by exact hl) h1 h2]
  rfl

/-- R23: a character's item, as the splitter stamps it. -/
theorem joinWindow_character (code : Nat) (s : State) :
    (joinWindow (.character code) s).window = s.window.add ⟨.character code, some (s.splitter.ownerOf code),
      some ⟨s.splitter.closeStart.levelOf (s.splitter.ownerOf code), s.splitter.size, s.splitter.setSize, s.splitter.slot⟩,
      s.condition.kill.isSome, s.decoder.markNext⟩ := by
  have hstart : s.splitter.closeStart.ownerOf code = s.splitter.ownerOf code ∧
      s.splitter.closeStart.size = s.splitter.size ∧ s.splitter.closeStart.setSize = s.splitter.setSize ∧
      s.splitter.closeStart.slot = s.splitter.slot := by
    unfold Splitter.closeStart
    split <;> exact ⟨rfl, rfl, rfl, rfl⟩
  obtain ⟨howner, hsize, hset, hslot⟩ := hstart
  simp only [joinWindow, Splitter.stamp, Splitter.stampAt, howner, hsize, hset, hslot]

/-- Settles O10: the byte completes its character, which joins at once. -/
theorem copyCharacterJoins : Obligations.CopyCharacterJoins := by
  unfold Obligations.CopyCharacterJoins
  intro s f rest q1 q0 b ht hr hc hp hq hl hlo hhi hroom hk
  have hcalm := (finish_calm _).trans <| (congrArg State.calm
    (decodeCopy_character (s := s.popped) ht hp hq hl hlo hhi)).trans
    (completeItem_character (sender := f.sender) hroom hk)
  refine ⟨_, exec_copyFrame ht hr hc, (window_of_calm hcalm).trans ?_, decoder_of_calm hcalm⟩
  rw [joinWindow_character]
  simp [hk]

end Sys2Proof.Machine
end

-- ==== proofs: kills ====
section
/-! A kill whose PARA is not held, and the KILL that a marked copy gap queues. -/

namespace Sys2Proof.Machine

/-! ### What a window operation that keeps the bodies keeps -/

/-- The place of the first PARA of a run of items depends on their bodies alone. -/
theorem find_para_congr {l m : List Item} (h : l.map Item.body = m.map Item.body) (i : CopyIndex) :
    ((enumItems i l).find? (fun p => p.2.body == .para)).map Prod.fst =
      ((enumItems i m).find? (fun p => p.2.body == .para)).map Prod.fst := by
  induction l generalizing m i with
  | nil =>
    obtain rfl : m = [] := by simpa using h.symm
    rfl
  | cons x l ih =>
    cases m with
    | nil => simp at h
    | cons y m =>
      obtain ⟨hxy, hlm⟩ : x.body = y.body ∧ l.map Item.body = m.map Item.body := by simpa using h
      simp only [enumItems, List.find?_cons, hxy]
      split
      · rfl
      · exact ih hlm _

theorem Window.para?_congr {w v : Window} (ho : w.oldest = v.oldest)
    (hb : w.items.map Item.body = v.items.map Item.body) (i : CopyIndex) : w.para? i = v.para? i := by
  have hc : w.count = v.count := by simpa [Window.count] using congrArg List.length hb
  have hholds (j : CopyIndex) : w.holds j = v.holds j := by simp only [Window.holds, ho, hc]
  have hbehind : w.behind i = v.behind i := by simp only [Window.behind, hholds, Window.next, ho, hc]
  have hdrop (n : Nat) : (w.items.drop n).map Item.body = (v.items.drop n).map Item.body := by
    rw [List.map_drop, List.map_drop, hb]
  have hfrom (j : CopyIndex) : ((w.itemsFrom j).find? (fun p => p.2.body == .para)).map Prod.fst =
      ((v.itemsFrom j).find? (fun p => p.2.body == .para)).map Prod.fst := by
    unfold Window.itemsFrom
    rw [hholds, ho]
    split
    · exact find_para_congr (hdrop _) _
    · rfl
  unfold Window.para?
  rw [hbehind, ho]
  exact hfrom _

theorem map_body_enumItems {f : CopyIndex → Item → Item} (hf : ∀ i it, (f i it).body = it.body) (i : CopyIndex)
    (l : List Item) : ((enumItems i l).map (fun p => f p.1 p.2)).map Item.body = l.map Item.body := by
  induction l generalizing i with
  | nil => rfl
  | cons x l ih => simp only [enumItems, List.map_cons, hf, ih]

theorem Window.rewrite_para? {f : CopyIndex → Item → Item} (hf : ∀ i it, (f i it).body = it.body) (w : Window)
    (i : CopyIndex) : (w.rewrite f).para? i = w.para? i :=
  Window.para?_congr (w := w.rewrite f) (v := w) rfl (map_body_enumItems hf _ _) i

/-- R15: marking items killed moves no PARA. -/
theorem Window.markKilled_para? (w : Window) (start : CopyIndex) (para old : Option CopyIndex) (i : CopyIndex) :
    (w.markKilled start para old).para? i = w.para? i := by
  refine Window.rewrite_para? (fun j it => ?_) w i
  split
  · split
    · rfl
    · split_ifs <;> rfl
  · rfl

/-! ### A kill whose PARA is not held (R168, R169) -/

/-- R169: a kill in progress whose PARA is not held goes on; killed items at the old end leave. -/
theorem endKillIfDue_waits {s : State} {k : KillInProgress} (hk : s.condition.kill = some k) (hp : k.para = none)
    (hw : s.window.para? k.start = none) : endKillIfDue s = s.withWindow s.window.purge := by
  simp [endKillIfDue, hk, hp, hw]

/-- The lines that a kill from line `n` leaves in hand. -/
def linesBehind (n : LineNumber) (lines : List LineRecord) : List LineRecord :=
  lines.filter (fun x => lineBehind x.number n && x.state != .opened)

theorem openLine_linesBehind {t : TallyUnit} {n : LineNumber} {lines : List LineRecord}
    (h : t.lines = linesBehind n lines) : t.openLine? = none := by
  unfold TallyUnit.openLine? linesBehind at *
  rw [h, List.find?_eq_none]
  intro x hx
  simpa using (Bool.and_eq_true_iff.mp (List.mem_filter.mp hx).2).2

/-- R168: what a kill whose PARA is not held leaves, whatever the freed records and slots set going. -/
theorem startKill_noPara {s : State} {n : LineNumber} {start : CopyIndex} (hp : s.window.para? start = none)
    (hk : s.condition.kill = none) :
    (startKill n start s).condition.kill = some ⟨n, start, n + 1, none⟩ ∧
      (startKill n start s).condition.killPeriod = some (n + 1) ∧
      (startKill n start s).tally.lines = linesBehind n s.tally.lines ∧
      (startKill n start s).window = (s.window.markKilled start none none).purge := by
  let u := settleFreed (killBlocks n start s)
  have hu : Settles (killBlocks n start s) u := settleFreed_settles _
  have hblocks : (killBlocks n start s).condition.kill = some ⟨n, start, n + 1, none⟩ ∧
      (killBlocks n start s).condition.killPeriod = some (n + 1) ∧
      (killBlocks n start s).tally.lines = linesBehind n s.tally.lines ∧
      (killBlocks n start s).window = s.window.markKilled start none none := by
    unfold killBlocks
    rw [hp, hk]
    refine ⟨(killSegments_settles ..).steady.kill, (killSegments_settles ..).steady.killPeriod,
      (killSegments_settles ..).lines, window_of_calm (killSegments_calm ..)⟩
  obtain ⟨hkill, hperiod, hlines, hwindow⟩ := hblocks
  have huw : u.window = s.window.markKilled start none none := (window_of_calm (settleFreed_calm _)).trans hwindow
  have hend : endKillIfDue u = u.withWindow u.window.purge :=
    endKillIfDue_waits (hu.steady.kill.trans hkill) rfl (by rw [huw, Window.markKilled_para?, hp])
  have hopen : (u.withWindow u.window.purge).tally.openLine? = none := openLine_linesBehind (hu.lines.trans hlines)
  have hrest := settleTally_noOpen hopen
  unfold startKill
  rw [hend]
  exact ⟨hrest.steady.kill.trans (hu.steady.kill.trans hkill),
    hrest.steady.killPeriod.trans (hu.steady.killPeriod.trans hperiod), hrest.lines.trans (hu.lines.trans hlines),
    (window_of_calm (settleTally_calm _)).trans (congrArg Window.purge huw)⟩

/-! ### Matching a KILL or RECALL (R164, R167) -/

theorem matchKill_kills {m : RecallMsg} {s : State} {r : LineRecord} (ht : s.tally.isTaken m.line = false)
    (hl : s.tally.line? m.line = some r) (hs : r.start = m.start) (hg : r.gen ≤ m.gen) :
    matchKill m s = startKill r.number r.start s := by
  simp [matchKill, ht, hl, hs, hg]

/-- R164: a RECALL of generation 1 of a held line is a kill. -/
theorem matchRecall_kills {n : Nat} {m : RecallMsg} {s : State} {r : LineRecord} (ht : s.tally.isTaken m.line = false)
    (hl : s.tally.line? m.line = some r) (hs : r.start = m.start) (hg : m.gen = 1) :
    matchRecall n m s = startKill r.number r.start s := by
  simp [matchRecall, ht, hl, hs, hg]

/-- R101, R167: a KILL at the head of a working station's queue. -/
theorem exec_killFrame {s : State} {f : Frame} {rest : List Frame} {m : RecallMsg} (hw : s.working = true)
    (hr : s.port.rx = f :: rest) (hc : f.cls = .lineKill) (hp : RecallMsg.parse f.payload = some m) :
    exec .killFrame s = .next (finish (matchKill m s.popped)) := by
  refine congrArg Host.Outcome.next ((takeHead_popped hr hc (takes_of_working hw)).trans (congrArg finish ?_))
  simp only [handleKill, hp, popped_working, hw, if_true]

/-- R101, R164: a RECALL at the head of a working station's queue. -/
theorem exec_recallFrame {s : State} {f : Frame} {rest : List Frame} {m : RecallMsg} (hw : s.working = true)
    (hr : s.port.rx = f :: rest) (hc : f.cls = .lineRecall) (hp : RecallMsg.parse f.payload = some m) :
    exec .recallFrame s = .next (finish (matchRecall f.sender m s.popped)) := by
  refine congrArg Host.Outcome.next ((takeHead_popped hr hc (takes_of_working hw)).trans (congrArg finish ?_))
  simp only [handleRecall, hp, popped_working, hw, if_true]

/-- Settles O49: either frame starts a kill whose PARA is not held. -/
theorem killWithoutPara : Obligations.KillWithoutPara := by
  unfold Obligations.KillWithoutPara
  intro s f rest m r hw hr hp htaken hline hstart hpara hkill hopen c hc
  have hexec : exec c s = .next (finish (startKill r.number r.start s.popped)) := by
    rcases hc with ⟨rfl, hcls, hgen⟩ | ⟨rfl, hcls, hgen⟩
    · rw [exec_killFrame hw hr hcls hp, matchKill_kills (s := s.popped) htaken hline hstart hgen]
    · rw [exec_recallFrame hw hr hcls hp, matchRecall_kills (s := s.popped) htaken hline hstart hgen]
  obtain ⟨hk, hperiod, hlines, hwindow⟩ := startKill_noPara (s := s.popped) (n := r.number) hpara hkill
  have hfin := finish_settles (startKill r.number r.start s.popped)
  have hbehind : linesBehind r.number s.tally.lines = s.tally.lines.filter (fun x => lineBehind x.number r.number) := by
    refine List.filter_congr fun x hx => ?_
    by_cases ho : x.state = .opened
    · simp [hopen x hx ho]
    · simp [ho]
  exact ⟨_, hexec, hfin.steady.kill.trans hk, hfin.steady.killPeriod.trans hperiod,
    hfin.lines.trans (hlines.trans hbehind), (window_of_calm (finish_calm _)).trans hwindow⟩

/-! ### The class of a frame this station makes (R95) -/

theorem FrameClass.ofCode_code (c : FrameClass) : FrameClass.ofCode c.code = c := by cases c <;> rfl

theorem FrameClass.code_lt (c : FrameClass) : c.code < 16 := by cases c <;> decide

theorem wordClass_arbWord (level : Nat) (c : FrameClass) (sender : Nat) : wordClass (arbWord level c sender) = c := by
  have hcode := c.code_lt
  have hfield : (level % 16 * 256 + c.code * 16 + sender % 16) % 2 ^ 12 / 16 % 16 = c.code := by omega
  rw [wordClass, arbWord, BitVec.toNat_ofNat, hfield, FrameClass.ofCode_code]

@[simp] theorem BusPort.frame_cls (p : BusPort) (c : FrameClass) (payload : List Byte) : (p.frame c payload).cls = c :=
  wordClass_arbWord ..

/-! ### The KILL of a marked copy gap (R18, R163) -/

/-- A frame that enters the queue stands in it with its slot. -/
theorem mem_enqueue (p : BusPort) (f : Frame) (u m : Bool) : ⟨f, u, 0, m, false, false⟩ ∈ (p.enqueue f u m).tx :=
  (txInsert_perm _ _).mem_iff.mpr List.mem_cons_self

/-- Handing a frame over removes none from the queue. -/
theorem mem_handOver {who : Producer} {f : Frame} {s : State} {x : TxFrame} (h : x ∈ s.port.tx) :
    x ∈ (handOver who f s).port.tx := by
  rcases handOver_cases who f s with e | e | ⟨u, -, e⟩ <;> rw [e]
  · exact h
  · simp only [State.withPort_port, BusPort.await]
    split <;> exact h
  · exact (txInsert_perm _ _).mem_iff.mpr (List.mem_cons_of_mem _ h)

theorem mem_sendAbortNotice {n : Notice} {a : CopyIndex} {s : State} {x : TxFrame} (h : x ∈ s.port.tx) :
    x ∈ (sendAbortNotice n a s).port.tx := by
  unfold sendAbortNotice
  split
  · exact mem_handOver h
  · split <;> exact h

/-- A quiet state stays quiet where the blocks that can have work outstanding stand and no frame comes to wait. -/
theorem quiet_congr {s t : State} (h : s.quiet = true) (hshaper : t.shaper = s.shaper) (hcart : t.cartridge = s.cartridge)
    (hplace : t.placement = s.placement) (hsplit : t.splitter = s.splitter) (hwindow : t.window = s.window)
    (hwait : t.port.waiting = []) : t.quiet = true := by
  obtain ⟨-, -, -, -, -, hnone, -⟩ := quiet_parts h
  simpa only [State.quiet, State.nothingWaits, State.noStoreWait, hshaper, hcart, hplace, hsplit, hwindow, hwait, hnone]
    using h

/-- R18, R163: COPY GAP against an open or held line, with no kill in progress, sends a KILL of that line and then its NOTICE. -/
theorem raise_copyGap {s : State} {r : LineRef} {start item key : CopyIndex} {ext : Option Nat} (hw : s.working = true)
    (hk : s.condition.kill = none) (hs : r.start = some start) :
    raise ⟨.copyGap, item, key, ext, some r, none⟩ s =
      sendAbortNotice ⟨.copyGap, r.number, item, 0, ext, 0⟩ item (sendRecall .lineKill r .copyGap s) := by
  simp [raise, hw, CondCode.cls, CondCode.contributory, raiseAbort, Cond.ref, hk, advanceChoices, hs]

/-- R18, R116: one copy gap marked on the open line's start item, not checked before, is raised against the line. -/
theorem checkGapMark_one {s : State} {r : LineRecord} {it : Item} {g : GapNote} (ho : s.tally.openLine? = some r)
    (hh : s.window.holds r.start = true) (hi : s.window.item? r.start = some it) (hg : it.gaps = [g])
    (hc : r.gapChecked = false) :
    checkGapMark s = raiseGap r (s.withTally (s.tally.mapLine r.number (fun x => { x with gapChecked := true }))) g := by
  simp [checkGapMark, ho, hh, LineRecord.gapsDue, hc, hi, hg]

/-- Handing a frame over changes the port alone. -/
theorem handOver_port (who : Producer) (f : Frame) (s : State) : ∃ p, handOver who f s = s.withPort p := by
  rcases handOver_cases who f s with e | e | ⟨u, -, e⟩
  · exact ⟨s.port, e⟩
  · exact ⟨_, e⟩
  · exact ⟨_, e⟩

/-- A frame that has a slot to go to does not wait. -/
theorem handOver_waiting {who : Producer} {f : Frame} {s : State} {u : Bool} (hw : s.port.waiting = [])
    (hs : s.port.slotFor f.cls = some u) : (handOver who f s).port.waiting = [] := by
  by_cases ha : s.accepts = true
  · rw [handOver_enters (u := u) ha (by simp [BusPort.stalled, hw]) hs]
    exact hw
  · simpa [handOver, ha] using hw

/-- R160: an abort NOTICE that has a slot to go to leaves a quiet state quiet, sent at once or held for its PARA. -/
theorem sendAbortNotice_quiet {n : Notice} {a : CopyIndex} {s : State} {u : Bool} (hq : s.quiet = true)
    (hs : s.port.slotFor .notice = some u) : (sendAbortNotice n a s).quiet = true := by
  obtain ⟨-, -, -, -, -, hwait, -⟩ := quiet_parts hq
  unfold sendAbortNotice
  split
  next p _ =>
    have hnone := handOver_waiting (who := .notice) (f := s.port.frame .notice { n with resume := p + 1 }.encode) hwait
      (by rw [BusPort.frame_cls]; exact hs)
    obtain ⟨q, hport⟩ := handOver_port .notice (s.port.frame .notice { n with resume := p + 1 }.encode) s
    rw [hport] at hnone
    rw [sendNotice, hport]
    exact quiet_congr hq rfl rfl rfl rfl rfl hnone
  · split
    · exact quiet_congr hq rfl rfl rfl rfl rfl hwait
    · exact hq

/-- R163: a RECALL or KILL that the station has none like enters the slot free for it. -/
theorem sendRecall_enters {c : FrameClass} {r : LineRef} {k : CondCode} {s : State} {u : Bool}
    (hroom : s.hasRoom .recallKill c u = true) (hheld : recallHeld s.port c r.number r.gen = false) :
    sendRecall c r k s =
      let f := s.port.frame c (RecallMsg.encode ⟨r.number, r.gen, r.startIn s, k.code⟩)
      s.withPort (s.port.enqueue f u (s.placement.entryMark f)) := by
  simp only [State.hasRoom, Bool.and_eq_true, Bool.not_eq_true', beq_iff_eq] at hroom
  obtain ⟨⟨haccepts, hstalled⟩, hslot⟩ := hroom
  rw [sendRecall, if_neg (by simp [hheld])]
  exact handOver_enters haccepts hstalled (by rw [BusPort.frame_cls]; exact hslot)

/-- R103: a frame in an urgent slot takes none of the slots a NOTICE can go to. -/
theorem slotFor_notice_enqueue {p : BusPort} {f : Frame} {m : Bool} (h : p.slotFor .notice = some false) :
    (p.enqueue f true m).slotFor .notice = some false := by
  have hused := (enqueue_used p f true m).1
  have hfree := slotFor_ordinary h
  simp only [if_true, Nat.add_zero] at hused
  simp [BusPort.slotFor, FrameClass.mayBeUrgent, hused, hfree]

/-- Settles O46: the KILL enters an urgent slot, and the NOTICE handed over after it leaves it there. -/
theorem deferredCopyGapKills : Obligations.DeferredCopyGapKills := by
  unfold Obligations.DeferredCopyGapKills
  intro s r it g hw hq ho hh hi hg hc hk hroom hroomNotice hheld
  let checked := s.withTally (s.tally.mapLine r.number (fun x => { x with gapChecked := true }))
  let kill := s.port.frame .lineKill (RecallMsg.encode ⟨r.number, r.gen, r.start, 34⟩)
  let sent := checked.withPort (s.port.enqueue kill true (s.placement.entryMark kill))
  let notice : Notice := ⟨.copyGap, r.number, g.point, 0, some g.sender, 0⟩
  have hsend : sendRecall .lineKill r.ref .copyGap checked = sent := sendRecall_enters hroom hheld
  have hgap : checkGapMark s = sendAbortNotice notice g.point sent := by
    rw [checkGapMark_one ho hh hi hg hc, ← hsend]
    exact raise_copyGap (s := checked) hw hk rfl
  have hslot : s.port.slotFor .notice = some false := by
    simp only [State.hasRoom, Bool.and_eq_true, beq_iff_eq] at hroomNotice
    exact hroomNotice.2
  have hsent : sent.quiet = true := by
    obtain ⟨-, -, -, -, -, hwait, -⟩ := quiet_parts hq
    exact quiet_congr hq rfl rfl rfl rfl rfl hwait
  have hexec : exec .deferredCopyGap s = .next (sendAbortNotice notice g.point sent) := by
    have hfin := finish_quiet (sendAbortNotice_quiet (n := notice) (a := g.point) hsent (slotFor_notice_enqueue hslot))
    rw [← hfin, ← hgap]
    exact congrArg Host.Outcome.next (if_pos hw)
  exact ⟨_, ⟨kill, true, 0, s.placement.entryMark kill, false, false⟩, hexec,
    mem_sendAbortNotice (mem_enqueue ..), rfl, rfl, window_of_calm (sendAbortNotice_calm ..)⟩

end Sys2Proof.Machine
end

-- ==== proofs: taking lines ====
section
/-! TAKEN frees lines in hand (R136), and the decisions it lets be made open no line of a freed number again. -/

namespace Sys2Proof.Machine

/-! ### One line taken (R136) -/

/-- R136: what taking the line of record `r` leaves of the lines, the summary and the roster. -/
theorem takeLine_tally (s : State) (r : LineRecord) :
    (takeLine s r).tally.lines = s.tally.lines.filter (fun x => x.number != r.number) ∧
      (takeLine s r).tally.taken = r.summary ∧ (takeLine s r).tally.roster = s.tally.roster := by
  have freed (u : State) : Settles u (reportTraps r.number r.spans (settleFreed (freeSegments (r.endIdx.getD r.start) u))) :=
    (freeSegments_settles ..).trans <| (settleFreed_settles _).trans (reportTraps_settles ..)
  exact ⟨congrArg (List.filter _) (freed _).lines, rfl, (freed _).steady.roster⟩

theorem takeLine_window (s : State) (r : LineRecord) :
    (takeLine s r).window = s.window.leaveBefore (r.endIdx.getD r.start) := by
  have freed (u : State) :
      (reportTraps r.number r.spans (settleFreed (freeSegments (r.endIdx.getD r.start) u))).window = u.window :=
    window_of_calm (by simp)
  exact freed _

/-! ### Several lines taken -/

theorem takeLines_fixed (rs : List LineRecord) (s : State) : (rs.foldl takeLine s).fixed = s.fixed :=
  foldl_keeps State.fixed takeLine takeLine_fixed rs s

theorem takeLines_roster (rs : List LineRecord) (s : State) : (rs.foldl takeLine s).tally.roster = s.tally.roster :=
  foldl_keeps (fun t => t.tally.roster) takeLine (fun t r => (takeLine_tally t r).2.2) rs s

theorem takeLines_window (rs : List LineRecord) (s : State) :
    (rs.foldl takeLine s).window = rs.foldl (fun w x => w.leaveBefore (x.endIdx.getD x.start)) s.window := by
  induction rs generalizing s with
  | nil => rfl
  | cons r rs ih => rw [List.foldl_cons, List.foldl_cons, ih, takeLine_window]

/-- R114: the summary is that of the last line taken. -/
theorem takeLines_taken (rs : List LineRecord) (r : LineRecord) (s : State) :
    ((rs ++ [r]).foldl takeLine s).tally.taken = r.summary := by
  rw [List.foldl_append]
  exact (takeLine_tally _ r).2.1

/-- R136: the records left are those of before, and none bears a taken line's number. -/
theorem mem_takeLines {rs : List LineRecord} {s : State} {y : LineRecord} (h : y ∈ (rs.foldl takeLine s).tally.lines) :
    y ∈ s.tally.lines ∧ ∀ x ∈ rs, y.number ≠ x.number := by
  induction rs generalizing s with
  | nil => exact ⟨h, by simp⟩
  | cons r rs ih =>
    obtain ⟨hy, hrest⟩ := ih h
    rw [(takeLine_tally s r).1, List.mem_filter] at hy
    exact ⟨hy.1, List.forall_mem_cons.mpr ⟨by simpa using hy.2, hrest⟩⟩

/-! ### What a decision does to line numbers (R127) -/

/-- Every record after bears the number of one before, and only an open one's if it is open. -/
def KeepsNumbers (l m : List LineRecord) : Prop :=
  ∀ y ∈ m, ∃ x ∈ l, y.number = x.number ∧ (y.state = .opened → x.state = .opened)

/-- Every record after bears the number of one before, or the number after that of an open one. -/
def OpensNext (l m : List LineRecord) : Prop :=
  ∀ y ∈ m, (∃ x ∈ l, y.number = x.number ∧ (y.state = .opened → x.state = .opened)) ∨
    ∃ x ∈ l, x.state = .opened ∧ y.number = x.number + 1

theorem KeepsNumbers.refl (l : List LineRecord) : KeepsNumbers l l := fun y hy => ⟨y, hy, rfl, id⟩

theorem KeepsNumbers.of_eq {l m : List LineRecord} (h : m = l) : KeepsNumbers l m := h ▸ .refl l

theorem KeepsNumbers.trans {l m n : List LineRecord} (h : KeepsNumbers l m) (g : KeepsNumbers m n) : KeepsNumbers l n := by
  intro y hy
  obtain ⟨x, hx, hyx, hox⟩ := g y hy
  obtain ⟨w, hw, hxw, how⟩ := h x hx
  exact ⟨w, hw, hyx.trans hxw, how ∘ hox⟩

theorem KeepsNumbers.opensNext {l m : List LineRecord} (h : KeepsNumbers l m) : OpensNext l m := fun y hy => .inl (h y hy)

theorem KeepsNumbers.trans_opensNext {l m n : List LineRecord} (h : KeepsNumbers l m) (g : OpensNext m n) :
    OpensNext l n := by
  intro y hy
  rcases g y hy with ⟨x, hx, hyx, hox⟩ | ⟨x, hx, hox, hyx⟩
  · obtain ⟨w, hw, hxw, how⟩ := h x hx
    exact .inl ⟨w, hw, hyx.trans hxw, how ∘ hox⟩
  · obtain ⟨w, hw, hxw, how⟩ := h x hx
    exact .inr ⟨w, hw, how hox, hyx.trans (congrArg (· + 1) hxw)⟩

/-- A record rewritten with its number and state kept. -/
theorem mapLine_keepsNumbers {t : TallyUnit} {n : LineNumber} {f : LineRecord → LineRecord}
    (hf : ∀ r, (f r).number = r.number ∧ (f r).state = r.state) : KeepsNumbers t.lines (t.mapLine n f).lines := by
  intro y hy
  obtain ⟨x, hx, rfl⟩ := List.mem_map.mp hy
  refine ⟨x, hx, ?_⟩
  split
  · exact ⟨(hf x).1, fun h => (hf x).2 ▸ h⟩
  · exact ⟨rfl, id⟩

/-- R114: the open line is one of the records. -/
theorem openLine_mem {t : TallyUnit} {r : LineRecord} (h : t.openLine? = some r) : r ∈ t.lines ∧ r.state = .opened := by
  have hstate := List.find?_some h
  exact ⟨List.mem_of_find?_eq_some h, by simpa using hstate⟩

/-- The open line's record gives way to one of its number. -/
theorem withOpen_keepsNumbers {t : TallyUnit} {r d : LineRecord} (h : t.openLine? = some r) (hn : d.number = r.number) :
    KeepsNumbers t.lines (t.withOpen d).lines := by
  intro y hy
  rcases mem_changeFirst hy with hy | ⟨-, -, -, rfl⟩
  · exact ⟨y, hy, rfl, id⟩
  · obtain ⟨hmem, hopen⟩ := openLine_mem h
    exact ⟨r, hmem, hn, fun _ => hopen⟩

/-! ### The scan keeps the line's number -/

theorem meet_number (r : LineRecord) (it : TallyItem) : (r.meet it).1.number = r.number := by
  unfold LineRecord.meet
  split_ifs <;> rfl

theorem meetBlank_number (env : ScanEnv) (r : LineRecord) (i : CopyIndex) (it : TallyItem) :
    (r.meetBlank env i it).1.number = r.number := by
  unfold LineRecord.meetBlank
  split
  · rfl
  · exact meet_number ..

theorem scanItems_number (env : ScanEnv) (skip : Nat) (l : List (CopyIndex × Item)) (r : LineRecord) :
    (scanItems env skip l r).1.number = r.number := by
  induction l generalizing skip r with
  | nil => unfold scanItems; rfl
  | cons p rest ih =>
    cases skip with
    | succ skip => exact ih skip r
    | zero =>
      unfold scanItems
      split
      · rfl
      · split
        · rfl
        · split
          · exact ih ..
          · rfl
        · exact (ih ..).trans (meetBlank_number ..)
        · exact (ih ..).trans (meetBlank_number ..)
        · exact ih ..

theorem fill_number (w : Window) (r : LineRecord) : (r.fill w).number = r.number := by
  unfold LineRecord.fill
  split <;> rfl

theorem scanned_number (s : State) (r : LineRecord) : (s.scanned r).1.number = r.number :=
  (scanItems_number ..).trans (fill_number ..)

/-! ### The round of the tally unit opens at most the line after the open one -/

theorem checkGapMark_keepsNumbers (s : State) : KeepsNumbers s.tally.lines (checkGapMark s).tally.lines := by
  unfold checkGapMark
  split
  next r _ =>
    have hmark : KeepsNumbers s.tally.lines (s.tally.mapLine r.number (fun x => { x with gapChecked := true })).lines :=
      mapLine_keepsNumbers fun _ => ⟨rfl, rfl⟩
    split
    · exact hmark.trans (.of_eq (Settles.foldl (fun _ _ => raise_settles ..) _ _).lines)
    · exact .refl _
  · exact .refl _

theorem runScan_keepsNumbers (s : State) : KeepsNumbers s.tally.lines (runScan s).tally.lines := by
  unfold runScan
  split
  next r ho =>
    have hscan : KeepsNumbers s.tally.lines (s.tally.withOpen (s.scanned r).1).lines :=
      withOpen_keepsNumbers ho (scanned_number s r)
    dsimp only
    split
    · exact hscan.trans (.of_eq (raise_settles ..).lines)
    · exact hscan
  · exact .refl _

theorem placeDecided_keepsNumbers (r : LineRecord) (st : Setting) (s : State) :
    KeepsNumbers s.tally.lines (placeDecided r st s).tally.lines :=
  mapLine_keepsNumbers (f := fun x => { x with placed := (s.placeStateOf r st).carried }) fun _ => ⟨rfl, rfl⟩

/-- R127: the decision of the open line opens the line after it, behind the records it keeps. -/
theorem decideLine_opensNext {r : LineRecord} {p : LineParams} {s : State} (ho : s.tally.openLine? = some r) :
    OpensNext s.tally.lines (decideLine r p s).tally.lines := by
  unfold decideLine
  extract_lets b st d s1 s2 lost s3 s4 s5 s6 s7
  have h1 : KeepsNumbers s.tally.lines s1.tally.lines := by
    have hunfence : ((s.tally.withOpen d).unfence r.number).lines = (s.tally.withOpen d).lines := by
      unfold TallyUnit.unfence; split <;> rfl
    exact (withOpen_keepsNumbers (d := d) ho rfl).trans (.of_eq hunfence)
  have h3 : Settles s1 s3 := (cutAtBreak_settles ..).trans (handOver_settles ..)
  have hplace : KeepsNumbers s3.tally.lines (pump (placeDecided d st s3)).tally.lines :=
    (placeDecided_keepsNumbers d st s3).trans (.of_eq (pump_settles _).lines)
  have h4 : OpensNext s.tally.lines s4.tally.lines := by
    have hkept := (h1.trans (.of_eq h3.lines)).trans hplace
    intro y hy
    rw [openLine_lines, List.mem_append, List.mem_singleton] at hy
    rcases hy with hy | rfl
    · exact .inl (hkept y hy)
    · obtain ⟨hmem, hopen⟩ := openLine_mem ho
      exact .inr ⟨r, hmem, hopen, rfl⟩
  have h7 : Settles s4 s7 := (raiseOverset_settles ..).trans <| (raiseLoose_settles ..).trans <|
    (Settles.foldl (fun _ _ => raise_settles ..) _ _).trans (Settles.foldl (fun _ _ => compareVerdict_settles ..) _ _)
  have hlast := h7.trans (Settles.ite (p := s7.shaper.holdsIn d = true) (checkWaitingStore_settles s7) (.refl s7))
  rw [hlast.lines]
  exact h4

theorem tallyRound_opensNext (s : State) : OpensNext s.tally.lines (tallyRound s).tally.lines := by
  have hscan := (checkGapMark_keepsNumbers s).trans (runScan_keepsNumbers _)
  unfold tallyRound
  refine hscan.trans_opensNext ?_
  unfold decideIfDue
  split
  next r ho =>
    split
    · split
      · exact decideLine_opensNext ho
      · exact (KeepsNumbers.refl _).opensNext
    · exact (KeepsNumbers.refl _).opensNext
  · exact (KeepsNumbers.refl _).opensNext

/-- No record bears the number `n`, which lies at least `k` lines after every open one. -/
def Avoids (n : LineNumber) (k : Nat) (l : List LineRecord) : Prop :=
  ∀ y ∈ l, y.number ≠ n ∧ (y.state = .opened → k ≤ distance y.number n)

theorem Avoids.mono {n : LineNumber} {k j : Nat} {l : List LineRecord} (h : Avoids n k l) (hj : j ≤ k) : Avoids n j l :=
  fun y hy => ⟨(h y hy).1, fun ho => hj.trans ((h y hy).2 ho)⟩

/-- The line after one that lies at least two lines before `n` lies one nearer to it, and is another. -/
theorem distance_next {x n : LineNumber} {k : Nat} (hk : 1 ≤ k) (h : k + 1 ≤ distance x n) :
    x + 1 ≠ n ∧ k ≤ distance (x + 1) n := by
  unfold distance at *
  constructor
  · rintro rfl
    bv_omega
  · bv_omega

theorem Avoids.opensNext {n : LineNumber} {k : Nat} {l m : List LineRecord} (hk : 1 ≤ k) (h : Avoids n (k + 1) l)
    (g : OpensNext l m) : Avoids n k m := by
  intro y hy
  rcases g y hy with ⟨x, hx, hyx, hox⟩ | ⟨x, hx, hox, hyx⟩
  · rw [hyx]
    exact ⟨(h x hx).1, fun ho => (Nat.le_succ k).trans ((h x hx).2 (hox ho))⟩
  · rw [hyx]
    obtain ⟨hne, hle⟩ := distance_next hk ((h x hx).2 hox)
    exact ⟨hne, fun _ => hle⟩

/-- R117: the decisions that follow one another at once open no line of a number that lies far enough after the open one. -/
theorem settleTally_avoids {s : State} {n : LineNumber} (h : Avoids n 4 s.tally.lines) :
    Avoids n 1 (settleTally s).tally.lines := by
  have rounds : Avoids n 1 (tallyRound (tallyRound (tallyRound s))).tally.lines :=
    ((h.opensNext (by decide) (tallyRound_opensNext s)).opensNext (by decide) (tallyRound_opensNext _)).opensNext
      (by decide) (tallyRound_opensNext _)
  unfold settleTally
  split
  · dsimp only
    split
    · rwa [(timeCoverage_settles ..).lines]
    · exact rounds
  · exact h.mono (by decide)

theorem Avoids.line?_none {n : LineNumber} {k : Nat} {t : TallyUnit} (h : Avoids n k t.lines) : t.line? n = none :=
  List.find?_eq_none.mpr fun y hy => by simpa using (h y hy).1

/-! ### TAKEN -/

/-- R101, R136: a TAKEN at the head of a working station's queue. -/
theorem exec_takenFrame {s : State} {f : Frame} {rest : List Frame} {n : LineNumber} (hw : s.working = true)
    (hr : s.port.rx = f :: rest) (hc : f.cls = .taken) (hp : parseTaken f.payload = some n) :
    exec .takenFrame s = .next (finish (settleTally ((s.tally.takenBy n).foldl takeLine s.popped))) := by
  refine congrArg Host.Outcome.next ((takeHead_popped hr hc (takes_of_working hw)).trans (congrArg finish ?_))
  simp only [handleTaken, hp, popped_working, hw, if_true, popped_tally]

/-- R136: what a TAKEN leaves that frees the lines of `rs` and then that of `r`, all behind any open line. -/
theorem takenFrame_frees {s : State} {f : Frame} {rest : List Frame} {n : LineNumber} {rs : List LineRecord}
    {r : LineRecord} (hw : s.working = true) (hr : s.port.rx = f :: rest) (hc : f.cls = .taken)
    (hp : parseTaken f.payload = some n) (htaken : s.tally.takenBy n = rs ++ [r])
    (hbehind : ∀ x ∈ rs ++ [r], ∀ o ∈ s.tally.lines, o.state = .opened → lineBehind x.number o.number = true) :
    ∃ t, exec .takenFrame s = .next t ∧ t.tally.taken = r.summary ∧
      (∀ x ∈ rs ++ [r], t.tally.line? x.number = none) ∧ t.tally.roster = s.tally.roster ∧
      t.window = (rs ++ [r]).foldl (fun w x => w.leaveBefore (x.endIdx.getD x.start)) s.window ∧
      t.decoder = s.decoder := by
  let u := (rs ++ [r]).foldl takeLine s.popped
  have hexec := exec_takenFrame hw hr hc hp
  rw [htaken] at hexec
  have hfin := finish_settles (settleTally u)
  have hsteady : Steady u (finish (settleTally u)) := (settleTally_steady u).trans hfin.steady
  have hcalm : (finish (settleTally u)).calm = u.calm := (finish_calm _).trans (settleTally_calm _)
  refine ⟨_, hexec, hsteady.taken.trans (takeLines_taken ..), fun x hx => ?_,
    hsteady.roster.trans (takeLines_roster ..), (window_of_calm hcalm).trans (takeLines_window ..),
    decoder_of_fixed ((fixed_of_calm hcalm).trans (takeLines_fixed ..))⟩
  have havoids : Avoids x.number 4 u.tally.lines := by
    intro y hy
    obtain ⟨hmem, hne⟩ := mem_takeLines hy
    refine ⟨hne x hx, fun ho => ?_⟩
    have hfar : 32768 ≤ distance y.number x.number := of_decide_eq_true (hbehind x hx y hmem ho)
    omega
  have hlines := settleTally_avoids havoids
  rw [← hfin.lines] at hlines
  exact hlines.line?_none

/-- Settles O42: the freed lines' records go, and the decisions that follow open lines of other numbers alone. -/
theorem takenFreesLine : Obligations.TakenFreesLine := by
  unfold Obligations.TakenFreesLine
  refine ⟨fun s f rest n r hw hr hc hp htaken hopen => ?_, fun s f rest n hw hr hc hp => ⟨fun rs r htaken hbehind =>
    takenFrame_frees hw hr hc hp htaken hbehind, fun hin => if_pos (by simpa using hin), fun hnot hq hsettled => ?_⟩⟩
  · have hnone : ∀ x ∈ [] ++ [r], ∀ o ∈ s.tally.lines, o.state = .opened → lineBehind x.number o.number = true := by
      intro x _ o ho hs
      exact absurd hs (by simpa using List.find?_eq_none.mp hopen o ho)
    obtain ⟨t, hexec, htk, hline, hroster, hwindow, hdec⟩ := takenFrame_frees (rs := []) hw hr hc hp htaken hnone
    exact ⟨t, hexec, htk, hline r (by simp), hroster, hwindow, hdec⟩
  · have hnone : s.tally.takenBy n = [] := if_neg (by simpa using hnot)
    rw [exec_takenFrame hw hr hc hp, hnone, List.foldl_nil, hsettled, finish_quiet hq]

end Sys2Proof.Machine
end

-- ==== proofs: joining with a held MUSTER ====
section
/-! A LISTENING station that holds a MUSTER queues it as it joins (R109, R116), besides the MUSTER of the join (R182). -/

namespace Sys2Proof.Machine

/-- The payload of a VERDICT of line 0 that ends its paragraph at index 1. -/
def joiningVerdict : VerdictMsg := ⟨0, 0, 0, 1, .paragraph, 0, 0, 0, 0, 0, 0, true, false, false⟩

def joiningFrame : Frame := ⟨arbWord 0 .verdict 2, joiningVerdict.encode⟩

/-- A LISTENING station, everything as after reset but for a MUSTER it still holds (R109), with one PARA in its window and
the joining VERDICT received. -/
def listeningHoldingMuster : State := { State.reset with
  condition := ConditionUnit.initial .listening
  window := ⟨0, [⟨.para, none, none, false, []⟩], startingParams⟩
  port := { BusPort.initial with rx := [joiningFrame], heldMuster := some ⟨⟨arbWord 8 .muster 0, [0, 0, 0]⟩, none⟩ } }

/-- The transmit queue after a command that completes. -/
def queueAfter (c : Instr) (s : State) : Option (List TxFrame) :=
  match exec c s with
  | .next t => some t.port.tx
  | .fault _ => none
  | .refused _ => none

/-- R109: the paragraph's first line that the join opens sends the held MUSTER too. -/
theorem join_sends_heldMuster :
    (queueAfter .verdictFrame listeningHoldingMuster).map List.length = some 2 := by decide +kernel

/-- Refutes O33: its second clause on joining allows a held MUSTER, which the line opened at the join queues before the
station's own MUSTER, so two frames stand in the transmit queue and not one. -/
theorem not_entryToActive : ¬ Obligations.EntryToActive := by
  unfold Obligations.EntryToActive
  intro h
  obtain ⟨hjoin, -⟩ := h.2 listeningHoldingMuster joiningFrame [] joiningVerdict rfl rfl rfl (by decide +kernel) (by decide +kernel)
  obtain ⟨t, hexec, -, -, -, htx, -⟩ := (hjoin 0 rfl (by decide +kernel) (by decide +kernel)).2
    (by decide +kernel) rfl rfl rfl rfl rfl rfl rfl
  have hlen := join_sends_heldMuster
  rw [queueAfter, hexec] at hlen
  simp [htx] at hlen

end Sys2Proof.Machine
end

-- ==== proofs: the copy window and the commands ====
section
/-! Which commands leave the copy decoder and the copy window alone, and the bounds that every step keeps. -/

namespace Sys2Proof.Machine

/-! ### What an operation leaves of the copy -/

/-- A station that works after worked before, and has received no COPY frame in between. -/
def Received (s t : State) : Prop := t.working = true → s.working = true ∧ t.port.copyFrames ≤ s.port.copyFrames

/-- The decoder stands, the window gains no item, no COPY frame is received. -/
structure KeepsCopy (s t : State) : Prop where
  decoder  : t.decoder = s.decoder
  count    : t.window.count ≤ s.window.count
  received : Received s t

/-- `KeepsCopy`, with the window left as it is. -/
structure LeavesCopy (s t : State) : Prop where
  decoder  : t.decoder = s.decoder
  window   : t.window = s.window
  received : Received s t

theorem Received.trans {s t u : State} (h : Received s t) (g : Received t u) : Received s u := fun hw =>
  ⟨(h (g hw).1).1, (g hw).2.trans (h (g hw).1).2⟩

theorem Received.of_steady {s t : State} (h : Steady s t) : Received s t := fun hw => by
  obtain ⟨hs, hrx⟩ := h.rx_of_working hw
  exact ⟨hs, by rw [BusPort.copyFrames, BusPort.copyFrames, hrx]⟩

theorem Received.of_eq {s t : State} (hw : t.working = s.working) (hrx : t.port.rx = s.port.rx) : Received s t := fun h =>
  ⟨hw ▸ h, by rw [BusPort.copyFrames, BusPort.copyFrames, hrx]⟩

/-- A station that does not work reserves nothing. -/
theorem Received.of_idle {s t : State} (h : t.working = false) : Received s t := fun hw => by simp [h] at hw

theorem KeepsCopy.trans {s t u : State} (h : KeepsCopy s t) (g : KeepsCopy t u) : KeepsCopy s u :=
  ⟨g.decoder.trans h.decoder, g.count.trans h.count, h.received.trans g.received⟩

theorem LeavesCopy.keepsCopy {s t : State} (h : LeavesCopy s t) : KeepsCopy s t :=
  ⟨h.decoder, (congrArg Window.count h.window).le, h.received⟩

theorem LeavesCopy.trans {s t u : State} (h : LeavesCopy s t) (g : LeavesCopy t u) : LeavesCopy s u :=
  ⟨g.decoder.trans h.decoder, g.window.trans h.window, h.received.trans g.received⟩

theorem LeavesCopy.of_eq {s t : State} (hd : t.decoder = s.decoder) (hv : t.window = s.window) (hw : t.working = s.working)
    (hrx : t.port.rx = s.port.rx) : LeavesCopy s t := ⟨hd, hv, .of_eq hw hrx⟩

theorem KeepsCopy.of_eq {s t : State} (hd : t.decoder = s.decoder) (hv : t.window.count ≤ s.window.count)
    (hw : t.working = s.working) (hrx : t.port.rx = s.port.rx) : KeepsCopy s t := ⟨hd, hv, .of_eq hw hrx⟩

theorem LeavesCopy.refl (s : State) : LeavesCopy s s := .of_eq rfl rfl rfl rfl

theorem LeavesCopy.of_idle {s t : State} (hd : t.decoder = s.decoder) (hv : t.window = s.window) (hw : t.working = false) :
    LeavesCopy s t := ⟨hd, hv, .of_idle hw⟩

/-- A shared operation leaves the copy alone. -/
theorem LeavesCopy.of_steady {s t : State} (hc : t.calm = s.calm) (h : Steady s t) : LeavesCopy s t :=
  ⟨decoder_of_calm hc, window_of_calm hc, .of_steady h⟩

/-- Blocks away from the copy may be replaced before an operation that leaves it alone. -/
theorem LeavesCopy.after {s t u : State} (g : LeavesCopy t u) (hd : t.decoder = s.decoder) (hv : t.window = s.window)
    (hw : t.working = s.working) (hrx : t.port.rx = s.port.rx) : LeavesCopy s u := (LeavesCopy.of_eq hd hv hw hrx).trans g

theorem LeavesCopy.ite {p : Prop} [Decidable p] {s t u : State} (h : LeavesCopy s t) (g : LeavesCopy s u) :
    LeavesCopy s (if p then t else u) := by
  split
  · exact h
  · exact g

theorem KeepsCopy.after {s t u : State} (g : KeepsCopy t u) (hd : t.decoder = s.decoder)
    (hv : t.window.count ≤ s.window.count) (hw : t.working = s.working) (hrx : t.port.rx = s.port.rx) : KeepsCopy s u :=
  (KeepsCopy.of_eq hd hv hw hrx).trans g

theorem LeavesCopy.withWindow {s t : State} {w : Window} (h : LeavesCopy s t) (hw : w.count ≤ t.window.count) :
    KeepsCopy s (t.withWindow w) := h.keepsCopy.trans (.of_eq rfl hw rfl rfl)

theorem KeepsCopy.ite {p : Prop} [Decidable p] {s t u : State} (h : KeepsCopy s t) (g : KeepsCopy s u) :
    KeepsCopy s (if p then t else u) := by
  split
  · exact h
  · exact g

theorem LeavesCopy.foldl {α : Type} {f : State → α → State} (h : ∀ s x, LeavesCopy s (f s x)) (l : List α) (s : State) :
    LeavesCopy s (l.foldl f s) := by
  induction l generalizing s with
  | nil => exact .refl s
  | cons x l ih => exact (h s x).trans (ih _)

/-! ### The shared operations -/

theorem raise_leavesCopy (c : Cond) (s : State) : LeavesCopy s (raise c s) :=
  .of_steady (raise_calm ..) (raise_settles ..).steady

theorem reportTraps_leavesCopy (n : LineNumber) (holds : CopyIndex → Bool) (s : State) :
    LeavesCopy s (reportTraps n holds s) := .of_steady (reportTraps_calm ..) (reportTraps_settles ..).steady

theorem raiseNamedTrap_leavesCopy (t : Trap) (n : LineNumber) (s : State) : LeavesCopy s (raiseNamedTrap t n s) :=
  .of_steady (raiseNamedTrap_calm ..) (raiseNamedTrap_settles ..).steady

theorem resumeShaping_leavesCopy (n : Nat) (s : State) : LeavesCopy s (resumeShaping n s) :=
  .of_steady (resumeShaping_calm ..) (resumeShaping_settles ..).steady

theorem resumeBox_leavesCopy (s : State) : LeavesCopy s (resumeBox s) :=
  .of_steady (resumeBox_calm _) (resumeBox_settles _).steady

theorem pump_leavesCopy (s : State) : LeavesCopy s (pump s) := .of_steady (pump_calm _) (pump_settles _).steady

theorem settleSlots_leavesCopy (s : State) : LeavesCopy s (settleSlots s) :=
  .of_steady (settleSlots_calm _) (settleSlots_settles _).steady

theorem resumeCutting_leavesCopy (s : State) : LeavesCopy s (resumeCutting s) :=
  .of_steady (resumeCutting_calm _) (resumeCutting_settles _).steady

theorem settleFreed_leavesCopy (s : State) : LeavesCopy s (settleFreed s) :=
  .of_steady (settleFreed_calm _) (settleFreed_settles _).steady

theorem settleTally_leavesCopy (s : State) : LeavesCopy s (settleTally s) :=
  .of_steady (settleTally_calm _) (settleTally_steady _)

theorem openLine_leavesCopy (r : LineRecord) (s : State) : LeavesCopy s (openLine r s) :=
  .of_steady (openLine_calm ..) (openLine_steady ..)

theorem queueMuster_leavesCopy (s : State) : LeavesCopy s (queueMuster s) :=
  .of_steady (queueMuster_calm _) (queueMuster_settles _).steady

theorem releasePendingNotices_leavesCopy (s : State) : LeavesCopy s (releasePendingNotices s) :=
  .of_steady (releasePendingNotices_calm _) (releasePendingNotices_settles _).steady

/-- What an event sets going in the other blocks leaves the copy alone. -/
theorem LeavesCopy.finish {s t : State} (h : LeavesCopy s t) : LeavesCopy s (finish t) :=
  h.trans (.of_steady (finish_calm _) (finish_settles _).steady)

theorem KeepsCopy.finish {s t : State} (h : KeepsCopy s t) : KeepsCopy s (finish t) :=
  h.trans (LeavesCopy.refl t).finish.keepsCopy

/-- A command that acts in some states and then settles. -/
theorem LeavesCopy.guarded {p : Prop} [Decidable p] {s t : State} (h : LeavesCopy s t) :
    LeavesCopy s (if p then Machine.finish t else s) := .ite h.finish (.refl s)

/-! ### Frames from the head of the receive queue (R101) -/

/-- The head that is removed is no COPY frame more. -/
theorem pop_received {s : State} {f : Frame} {rest : List Frame} (h : s.port.rx = f :: rest) :
    Received s (s.withPort { s.port with rx := rest }) := fun hw =>
  ⟨hw, by
    simp only [State.withPort_port, BusPort.copyFrames, h]
    exact (List.sublist_cons_self f rest).countP_le⟩

theorem pop_leavesCopy {s : State} {f : Frame} {rest : List Frame} (h : s.port.rx = f :: rest) :
    LeavesCopy s (s.withPort { s.port with rx := rest }) := ⟨rfl, rfl, pop_received h⟩

theorem takeHead_leavesCopy {c : FrameClass} {act : Frame → State → State} (h : ∀ f u, LeavesCopy u (act f u)) (s : State) :
    LeavesCopy s (takeHead c act s) := by
  unfold takeHead
  split
  next f rest hr =>
    exact ((pop_leavesCopy hr).trans (h f _)).guarded
  · exact .refl s

theorem takeHead_keepsCopy {c : FrameClass} {act : Frame → State → State} (h : ∀ f u, KeepsCopy u (act f u)) (s : State) :
    KeepsCopy s (takeHead c act s) := by
  unfold takeHead
  split
  next f rest hr =>
    split
    · exact ((pop_leavesCopy hr).keepsCopy.trans (h f _)).finish
    · exact (LeavesCopy.refl s).keepsCopy
  · exact (LeavesCopy.refl s).keepsCopy

/-! ### MEASURE (R119 to R122) -/

theorem takeMeasure_leavesCopy (r : LineRecord) (g : SegItem) (s : State) : LeavesCopy s (takeMeasure r g s) := by
  refine .of_steady (takeMeasure_calm ..) ?_
  unfold takeMeasure enterSegment replaceSegments compareSegment raiseTallyFull
  dsimp only
  split
  · split
    · exact (raise_settles ..).steady
    · exact .refl s
  · split_ifs
    · exact withTally_steady rfl rfl
    · exact .refl s
    · exact (withTally_steady rfl rfl).trans (raise_settles ..).steady
    · exact .refl s
    · exact withTally_steady rfl rfl
    · exact .refl s
    · exact (raise_settles ..).steady

theorem handleMeasure_leavesCopy (f : Frame) (s : State) : LeavesCopy s (handleMeasure f s) := by
  have route (m : MeasureMsg) (u : State) : LeavesCopy u (routeMeasure f.sender m u) := by
    unfold routeMeasure
    split
    · split
      · exact takeMeasure_leavesCopy ..
      · exact .refl u
    · exact .refl u
  have restart : LeavesCopy s (s.withTally s.tally.restartCoverage) := .of_eq rfl rfl rfl rfl
  unfold handleMeasure
  split
  · exact .ite (restart.trans ((route ..).trans (settleTally_leavesCopy _))) (.refl s)
  · exact .refl s

/-! ### MUSTER, NOTICE, HOLD, RELEASE and PLACE -/

theorem handleMuster_leavesCopy (f : Frame) (s : State) : LeavesCopy s (handleMuster f s) := by
  unfold handleMuster
  exact .ite (.of_eq rfl rfl rfl rfl) (.refl s)

theorem handleNotice_leavesCopy (f : Frame) (s : State) : LeavesCopy s (handleNotice f s) := by
  unfold handleNotice
  split
  · exact .ite (.of_eq rfl rfl rfl rfl) (.refl s)
  · exact .refl s

theorem applyHold_leavesCopy (s : State) : LeavesCopy s (applyHold s) := by
  unfold applyHold replaceLines
  split
  · exact .of_eq rfl rfl rfl rfl
  · exact .of_eq rfl rfl rfl rfl
  · exact (settleSlots_leavesCopy _).after rfl rfl rfl rfl

theorem applyRelease_leavesCopy (s : State) : LeavesCopy s (applyRelease s) := by
  unfold applyRelease
  split
  · exact .of_eq rfl rfl rfl rfl
  · exact .of_eq rfl rfl rfl rfl
  · exact (pump_leavesCopy _).after rfl rfl rfl rfl

theorem handleHold_leavesCopy (f : Frame) (s : State) : LeavesCopy s (handleHold f s) := by
  unfold handleHold
  exact .ite (.refl s) (.ite ((applyHold_leavesCopy _).after rfl rfl rfl rfl) (.of_eq rfl rfl rfl rfl))

theorem handleRelease_leavesCopy (f : Frame) (s : State) : LeavesCopy s (handleRelease f s) := by
  unfold handleRelease
  exact .ite (.ite ((applyRelease_leavesCopy _).after rfl rfl rfl rfl) (.of_eq rfl rfl rfl rfl)) (.refl s)

theorem handlePlace_leavesCopy (f : Frame) (s : State) : LeavesCopy s (handlePlace f s) := by
  have carry (m : PlaceMsg) : LeavesCopy s (carryPlace m s) := by
    unfold carryPlace
    split
    · exact .ite (.ite (.of_eq rfl rfl rfl rfl) (.of_eq rfl rfl rfl rfl)) (.refl s)
    · exact .refl s
  unfold handlePlace
  split
  · exact .ite (carry _) (.refl s)
  · exact .refl s

/-! ### Verdicts at a working station (R132) -/

/-- R136, R171: the end of the kill period leaves the station state. -/
theorem working_of_endPeriod {s t : State} {p : Prop} [Decidable p]
    (hc : t.condition = if p then { s.condition with killPeriod := none } else s.condition)
    (hl : t.port.withdrawalPending = s.port.withdrawalPending) : t.working = s.working := by
  rw [State.working, State.working, hc, hl]
  split <;> rfl

theorem takeVerdict_leavesCopy (n : Nat) (m : VerdictMsg) (s : State) : LeavesCopy s (takeVerdict n m s) := by
  have compare (r : LineRecord) (k : Nat) (g : Figures) (u : State) : LeavesCopy u (compareVerdict r k g u) :=
    .of_steady (compareVerdict_calm ..) (compareVerdict_settles ..).steady
  have carried (r : LineRecord) (u : State) : LeavesCopy u (ownVerdictCarried r u) := by
    unfold ownVerdictCarried
    exact (reportTraps_leavesCopy ..).after rfl rfl (working_of_endPeriod rfl rfl) rfl
  have matched (r : LineRecord) : LeavesCopy s (matchVerdict r n m s) := by
    have store : LeavesCopy s (s.withTally (s.tally.mapLine r.number (fun x => x.store ⟨n, m.gen, m.figures⟩))) :=
      .of_eq rfl rfl rfl rfl
    unfold matchVerdict
    exact .ite (.ite store ((store.trans (compare ..)).trans (.ite (carried ..) (.refl _))))
      (.ite (.refl s) (raise_leavesCopy ..))
  unfold takeVerdict compareTaken
  split
  · exact .refl s
  · split
    · exact matched _
    · split
      · exact .ite (raiseNamedTrap_leavesCopy ..) (.refl s)
      · split
        · exact .ite (raise_leavesCopy ..) (.refl s)
        · exact .refl s

/-! ### Lines taken, recalled and killed (R136, R165, R168) -/

theorem freeSegments_leavesCopy (e : CopyIndex) (s : State) : LeavesCopy s (freeSegments e s) :=
  .of_steady (freeSegments_calm ..) (freeSegments_settles ..).steady

theorem killSegments_leavesCopy (e : CopyIndex) (s : State) : LeavesCopy s (killSegments e s) :=
  .of_steady (killSegments_calm ..) (killSegments_settles ..).steady

theorem undoCuts_leavesCopy (n : LineNumber) (s : State) : LeavesCopy s (undoCuts n s) :=
  .of_steady (undoCuts_calm ..)
    ((Settles.ite (abandonShaping_settles _) (.refl _)).trans (withShaper_settles ..)).steady

theorem takeLine_keepsCopy (s : State) (r : LineRecord) : KeepsCopy s (takeLine s r) := by
  unfold takeLine
  extract_lets e s1 s2
  have h0 : KeepsCopy s { s with
      port := s.port.remove (isLineFrame r.number)
      window := s.window.leaveBefore e
      placement := s.placement.release (fun n => n == r.number) } := .of_eq rfl (Window.leaveBefore_count ..) rfl rfl
  have h1 : KeepsCopy s s1 := h0.trans ((freeSegments_leavesCopy ..).trans (settleFreed_leavesCopy _)).keepsCopy
  have h2 : KeepsCopy s s2 := h1.trans (reportTraps_leavesCopy ..).keepsCopy
  exact h2.trans (.of_eq rfl le_rfl (working_of_endPeriod rfl rfl) rfl)

theorem KeepsCopy.foldl {α : Type} {f : State → α → State} (h : ∀ s x, KeepsCopy s (f s x)) (l : List α) (s : State) :
    KeepsCopy s (l.foldl f s) := by
  induction l generalizing s with
  | nil => exact (LeavesCopy.refl s).keepsCopy
  | cons x l ih => exact (h s x).trans (ih _)

theorem handleTaken_keepsCopy (f : Frame) (s : State) : KeepsCopy s (handleTaken f s) := by
  unfold handleTaken
  split
  · split
    · exact (KeepsCopy.foldl takeLine_keepsCopy _ s).trans (settleTally_leavesCopy _).keepsCopy
    · exact (LeavesCopy.refl s).keepsCopy
  · exact (LeavesCopy.refl s).keepsCopy

/-- R165: a first recall frees no copy. -/
theorem firstRecall_leavesCopy (r : LineRecord) (s : State) : LeavesCopy s (firstRecall r s) := by
  have blocks : LeavesCopy s (recallBlocks r s) := (undoCuts_leavesCopy ..).after rfl rfl rfl rfl
  have published (u : State) (x : Published) : LeavesCopy u (publish u x) := by
    cases x with
    | own r => exact .of_steady (publishRecord_calm ..) (publishRecord_settles ..).steady
    | box b => exact .of_steady (publishBox_calm ..) (publishBox_settles ..).steady
  have checked (u : State) : LeavesCopy u (checkWaitingStore u) :=
    .of_steady (checkWaitingStore_calm _) (checkWaitingStore_settles _).steady
  exact blocks.trans <| (settleFreed_leavesCopy _).trans <| (LeavesCopy.foldl published _ _).trans <|
    (checked _).trans (settleTally_leavesCopy _)

theorem purge_count (w : Window) : w.purge.count ≤ w.count := purgeItems_count ..

/-- R169: a kill's end lets killed items at the old end leave. -/
theorem endKillIfDue_keepsCopy (s : State) : KeepsCopy s (endKillIfDue s) := by
  have opened (u : State) (r : LineRecord) (hu : LeavesCopy s u) : LeavesCopy s (releasePendingNotices (openLine r u)) :=
    hu.trans ((openLine_leavesCopy ..).trans (releasePendingNotices_leavesCopy _))
  have ended (k : KillInProgress) (p : CopyIndex) : KeepsCopy s (endKill k p s) := by
    refine (opened _ _ ?_).withWindow (purge_count _)
    exact .of_eq rfl rfl rfl rfl
  unfold endKillIfDue
  split
  · split
    · exact ended ..
    · exact (LeavesCopy.refl s).withWindow (purge_count _)
  · exact (LeavesCopy.refl s).keepsCopy

theorem startKill_keepsCopy (n : LineNumber) (start : CopyIndex) (s : State) : KeepsCopy s (startKill n start s) := by
  have blocks : KeepsCopy s (killBlocks n start s) :=
    (killSegments_leavesCopy ..).keepsCopy.after rfl (Window.rewrite_count ..).le rfl rfl
  exact blocks.trans <| (settleFreed_leavesCopy _).keepsCopy.trans <| (endKillIfDue_keepsCopy _).trans
    (settleTally_leavesCopy _).keepsCopy

theorem handleKill_keepsCopy (f : Frame) (s : State) : KeepsCopy s (handleKill f s) := by
  have same := (LeavesCopy.refl s).keepsCopy
  have matched (m : RecallMsg) : KeepsCopy s (matchKill m s) := by
    unfold matchKill
    refine .ite same ?_
    split
    · exact same
    · exact .ite (startKill_keepsCopy ..) same
  unfold handleKill
  split
  · exact .ite (matched _) same
  · exact same

theorem handleRecall_keepsCopy (f : Frame) (s : State) : KeepsCopy s (handleRecall f s) := by
  have same := (LeavesCopy.refl s).keepsCopy
  have late (m : RecallMsg) : LeavesCopy s (lateRecall f.sender m s) := .ite (raiseNamedTrap_leavesCopy ..) (.refl s)
  have matched (m : RecallMsg) : KeepsCopy s (matchRecall f.sender m s) := by
    unfold matchRecall
    refine .ite (late m).keepsCopy ?_
    split
    · exact same
    · exact .ite same <| .ite (startKill_keepsCopy ..) <| .ite same <| .ite (startKill_keepsCopy ..)
        (firstRecall_leavesCopy ..).keepsCopy
  unfold handleRecall
  split
  · exact .ite (matched _) same
  · exact same

/-! ### Pins and the cartridge (R40, R54, R175) -/

theorem entering_leavesCopy {s : State} {x : StationState} (hx : x ≠ .active) : LeavesCopy s (s.entering x) :=
  .of_idle rfl rfl (by simp [State.entering, State.working, hx])

theorem enterWithdrawn_leavesCopy (s : State) : LeavesCopy s (enterWithdrawn s) := .of_idle rfl rfl rfl

theorem enterProfiling_leavesCopy (s : State) : LeavesCopy s (enterProfiling s) := by
  have read (u : State) : LeavesCopy u (startNextRead u) := .of_eq rfl rfl rfl rfl
  unfold enterProfiling
  split
  · refine LeavesCopy.trans ?_ (read _)
    exact (entering_leavesCopy (by decide)).after rfl rfl rfl rfl
  · exact entering_leavesCopy (by decide)

theorem removeCartridge_leavesCopy (s : State) : LeavesCopy s (removeCartridge (abandonCartridgeWork s)) := by
  have abandoned : LeavesCopy s (abandonCartridgeWork s) := by
    refine (LeavesCopy.of_steady (s := s) (t := abandonBox (abandonShaping s)) (by simp) ?_).trans (.of_eq rfl rfl rfl rfl)
    exact ((abandonShaping_settles s).trans (abandonBox_settles _)).steady
  refine abandoned.trans ?_
  unfold removeCartridge
  split
  · exact entering_leavesCopy (by decide)
  · exact enterWithdrawn_leavesCopy _
  · exact raise_leavesCopy ..
  · exact .refl _
  · exact .refl _
  · exact .refl _

theorem receiveWord_leavesCopy (o : OutstandingRead) (w : CartWord) (s : State) : LeavesCopy s (receiveWord o w s) := by
  have profile (u : State) : LeavesCopy u (receiveProfileWord w u) := by
    unfold receiveProfileWord profileRead
    split
    · exact .refl u
    · exact .ite (.refl u) (.ite (.ite ((entering_leavesCopy (by decide)).after rfl rfl rfl rfl)
        ((entering_leavesCopy (by decide)).after rfl rfl rfl rfl)) (.of_eq rfl rfl rfl rfl))
  unfold receiveWord
  dsimp only
  split
  · exact .of_eq rfl rfl rfl rfl
  · split
    · exact (profile _).after rfl rfl rfl rfl
    · exact (resumeShaping_leavesCopy ..).after rfl rfl rfl rfl
    · exact (resumeBox_leavesCopy _).after rfl rfl rfl rfl

/-! ### Timers, traps and what is outstanding -/

theorem reportDue_leavesCopy (s : State) : LeavesCopy s (reportDue s) := by
  have line (u : State) (r : LineRecord) : LeavesCopy u (reportLine u r) := .ite (reportTraps_leavesCopy ..) (.refl u)
  have lines : LeavesCopy s (s.tally.inHand.foldl reportLine s) := .foldl line _ _
  unfold reportDue
  dsimp only
  split
  · exact lines.trans (reportTraps_leavesCopy ..)
  · exact lines

theorem planBoxes_leavesCopy (s : State) : LeavesCopy s (planBoxes s) := by
  unfold planBoxes
  split
  · exact .ite (.of_eq rfl rfl rfl rfl) (.refl s)
  · exact .refl s

theorem raiseCoverageTimeout_leavesCopy (s : State) : LeavesCopy s (raiseCoverageTimeout s) := by
  unfold raiseCoverageTimeout
  split
  · exact raise_leavesCopy ..
  · exact .refl s

theorem expireVerdictWait_leavesCopy (n : LineNumber) (s : State) : LeavesCopy s (expireVerdictWait n s) := by
  have lose (r : LineRecord) (u : State) (m : Nat) : LeavesCopy u (loseStation r u m) :=
    (raiseNamedTrap_leavesCopy ..).after rfl rfl rfl rfl
  unfold expireVerdictWait
  dsimp only
  split
  · exact (LeavesCopy.foldl (lose _) _ _).after rfl rfl rfl rfl
  · exact .of_eq rfl rfl rfl rfl

theorem raiseLongHold_leavesCopy (s : State) : LeavesCopy s (raiseLongHold s) := by
  unfold raiseLongHold
  split
  · exact raise_leavesCopy ..
  · exact .ite (.of_eq rfl rfl rfl rfl) (.refl s)

/-! ### The commands away from the copy -/

/-- R3, R13, R14: the commands that neither read copy in nor free it, receive no frame, and do not start or end the station's
work on copy. -/
def awayFromCopy : Instr → Bool
  | .powerOn | .resetLineAsserted | .frameAttemptEnd _ | .frameReceived _ _ _ _ | .clearFrame | .copyFrame | .verdictFrame
  | .takenFrame | .recallFrame | .killFrame | .killEnd => false
  | _ => true

theorem exec_leavesCopy {c : Instr} {s t : State} (hc : awayFromCopy c = true) (h : exec c s = .next t) :
    LeavesCopy s t := by
  have out {u : State} (e : exec c s = .next u) (hu : LeavesCopy s u) : LeavesCopy s t := by
    rw [h] at e
    cases e
    exact hu
  cases c with
  | powerOn | resetLineAsserted | frameAttemptEnd | frameReceived | clearFrame | copyFrame | verdictFrame | takenFrame
  | recallFrame | killFrame | killEnd => cases hc
  | resetLineReleased straps => exact out rfl (.ite ((enterProfiling_leavesCopy _).after rfl rfl rfl rfl) (.refl s))
  | cartridgePresentFall =>
    exact out rfl (.ite (.ite (.of_eq rfl rfl rfl rfl) ((removeCartridge_leavesCopy _).after rfl rfl rfl rfl)) (.refl s))
  | cartridgePresentRise => exact out rfl (.of_eq rfl rfl rfl rfl)
  | cartridgeReadComplete word =>
    refine out rfl ?_
    split
    · exact (receiveWord_leavesCopy ..).finish
    · exact .refl s
  | frameAttemptStart => exact out rfl (.ite (.of_eq rfl rfl rfl rfl) (.refl s))
  | cuttingResumed => exact out rfl (.guarded (resumeCutting_leavesCopy s))
  | shapingStart => exact out rfl (.guarded (.of_steady (startShaping_calm s) (startShaping_settles s).steady))
  | storeWaitGranted => exact out rfl (.guarded (.of_steady (grantStore_calm s) (grantStore_settles s).steady))
  | shapingComplete => exact out rfl (.guarded (.of_steady (completeShaping_calm s) (completeShaping_settles s).steady))
  | boxBuildStart => exact out rfl (.guarded (.of_steady (startBox_calm s) (startBox_settles s).steady))
  | boxBuildComplete => exact out rfl (.guarded (.of_steady (completeBox_calm s) (completeBox_settles s).steady))
  | pendingRemainderRecord =>
    exact out rfl (.guarded (.of_steady (placeRemainder_calm s) (placeRemainder_settles s).steady))
  | waitingFrameEnters => exact out rfl (.guarded (settleSlots_leavesCopy s))
  | measureFrame => exact out rfl (takeHead_leavesCopy handleMeasure_leavesCopy s)
  | deferredDecision => exact out rfl (.guarded (settleTally_leavesCopy s))
  | deferredCopyGap => exact out rfl (.guarded (.of_steady (checkGapMark_calm s) (checkGapMark_steady s)))
  | trapReport => exact out rfl (.guarded (reportDue_leavesCopy s))
  | musterFrame => exact out rfl (takeHead_leavesCopy handleMuster_leavesCopy s)
  | noticeFrame => exact out rfl (takeHead_leavesCopy handleNotice_leavesCopy s)
  | holdFrame => exact out rfl (takeHead_leavesCopy handleHold_leavesCopy s)
  | releaseFrame => exact out rfl (takeHead_leavesCopy handleRelease_leavesCopy s)
  | placeFrame => exact out rfl (takeHead_leavesCopy handlePlace_leavesCopy s)
  | heldMusterRequeued =>
    exact out rfl (.guarded (.of_steady (requeueHeldMuster_calm s) (requeueHeldMuster_settles s).steady))
  | pendingAbortNotice => exact out rfl (.guarded (releasePendingNotices_leavesCopy s))
  | unassignedClass => exact out rfl (takeHead_leavesCopy (fun _ u => .refl u) s)
  | coverageTimerFirstEnd => exact out rfl (.guarded ((planBoxes_leavesCopy _).after rfl rfl rfl rfl))
  | coverageTimerSecondEnd => exact out rfl (.guarded ((raiseCoverageTimeout_leavesCopy _).after rfl rfl rfl rfl))
  | verdictWaitExpiry =>
    refine out rfl ?_
    split
    · exact .guarded (expireVerdictWait_leavesCopy ..)
    · exact .refl s
  | longHoldExpiry => exact out rfl (.guarded ((raiseLongHold_leavesCopy _).after rfl rfl rfl rfl))

end Sys2Proof.Machine
end

-- ==== proofs: the bounds of the copy window ====
section
/-! A frame carried to the station, CLEAR, joining and copy itself; and with them the statements on what changes the copy and
on the bounds of the window (R3, R12 to R16). -/

namespace Sys2Proof.Machine

/-! ### The bounds and the operations that gain no item (R12, R16) -/

theorem State.CopySound.of_keepsCopy {s t : State} (h : s.CopySound) (g : KeepsCopy s t) : t.CopySound := by
  refine ⟨g.count.trans h.size, fun hw => ?_⟩
  obtain ⟨hs, hcopies⟩ := g.received hw
  have hcount := g.count
  have hreserve := h.reserve hs
  simp only [State.copyReserve, Window.free, frameItems, windowSize] at hreserve ⊢
  omega

/-! ### A frame carried to the station (R100, R102, R106) -/

/-- R16: how many COPY frames a frame is. -/
def copyWeight (f : Frame) : Nat := if f.cls = .copy then 1 else 0

/-- The frame `f` at most is received; the decoder and the window stand. -/
structure TakesIn (f : Frame) (s t : State) : Prop where
  decoder  : t.decoder = s.decoder
  window   : t.window = s.window
  received : t.working = true → s.working = true ∧ t.port.copyFrames ≤ s.port.copyFrames + copyWeight f

/-- R99, R100: the copy is left alone, or a frame is taken in that this station does not spoil. -/
def MayTakeIn (s t : State) : Prop :=
  LeavesCopy s t ∨ ∃ f right, s.spoils f.cls right = false ∧ TakesIn f s t

theorem place_port (p : BusPort) (f : Frame) :
    (p.place f).rx = p.rx ++ [f] ∧ (p.place f).withdrawalPending = p.withdrawalPending := by
  unfold BusPort.place
  split <;> exact ⟨rfl, rfl⟩

theorem place_takesIn (s : State) (f : Frame) : TakesIn f s (s.withPort (s.port.place f)) := by
  obtain ⟨hrx, hleaving⟩ := place_port s.port f
  refine ⟨rfl, rfl, fun hw => ⟨?_, ?_⟩⟩
  · simpa only [State.working, State.withPort_condition, State.withPort_port, hleaving] using hw
  · rw [State.withPort_port, BusPort.copyFrames, hrx, List.countP_append, List.countP_singleton, copyWeight]
    simp [BusPort.copyFrames]

theorem LeavesCopy.trans_takesIn {f : Frame} {s t u : State} (h : LeavesCopy s t) (g : TakesIn f t u) : TakesIn f s u :=
  ⟨g.decoder.trans h.decoder, g.window.trans h.window, fun hw =>
    ⟨(h.received (g.received hw).1).1,
      (g.received hw).2.trans (Nat.add_le_add_right (h.received (g.received hw).1).2 _)⟩⟩

theorem TakesIn.trans_leavesCopy {f : Frame} {s t u : State} (h : TakesIn f s t) (g : LeavesCopy t u) : TakesIn f s u :=
  ⟨g.decoder.trans h.decoder, g.window.trans h.window, fun hw =>
    ⟨(h.received (g.received hw).1).1, (g.received hw).2.trans (h.received (g.received hw).1).2⟩⟩

theorem MayTakeIn.finish {s t : State} (h : MayTakeIn s t) : MayTakeIn s (finish t) := by
  rcases h with h | ⟨f, right, hsp, h⟩
  · exact .inl h.finish
  · exact .inr ⟨f, right, hsp, h.trans_leavesCopy (LeavesCopy.refl t).finish⟩

/-- R106, R107: an attempt that fails moves the frame in flight alone. -/
theorem attemptFails_leavesCopy (t : TxFrame) (s : State) : LeavesCopy s (attemptFails t s) := by
  unfold attemptFails
  split <;> exact .of_eq rfl rfl rfl rfl

/-- R108 to R110: a dropped frame raises a condition or is held. -/
theorem dropFrame_leavesCopy (f : Frame) (s : State) : LeavesCopy s (dropFrame f s) := by
  have measure (i : CopyIndex) : LeavesCopy s (dropMeasure i s) := by
    unfold dropMeasure
    refine .ite (.refl s) ?_
    split
    · exact .ite (.refl s) (raise_leavesCopy ..)
    · exact .refl s
  have line (n : LineNumber) (g : Nat) : LeavesCopy s (dropLineFrame n g s) := by
    unfold dropLineFrame
    split
    · exact .ite (.refl s) (raise_leavesCopy ..)
    · exact .refl s
  have muster : LeavesCopy s (holdMuster f s) := .ite (.of_eq rfl rfl rfl rfl) (.refl s)
  unfold dropFrame
  split
  · exact measure _
  · exact line ..
  · exact line ..
  · exact muster
  · exact raise_leavesCopy ..
  · exact raise_leavesCopy ..
  all_goals exact .refl s

theorem attemptSpoiled_leavesCopy (t : TxFrame) (s : State) : LeavesCopy s (attemptSpoiled t s) := by
  unfold attemptSpoiled
  refine .ite (attemptFails_leavesCopy ..) (.ite (.of_eq rfl rfl rfl rfl) (.ite ?_ ?_))
  · exact (enterWithdrawn_leavesCopy _).after rfl rfl rfl rfl
  · exact ((settleSlots_leavesCopy _).trans (dropFrame_leavesCopy ..)).after rfl rfl rfl rfl

/-- R106: the frame in flight joins the receive queue when it is carried and the station takes it. -/
theorem endAttempt_mayTakeIn (t : TxFrame) (o : AttemptOutcome) (s : State) : MayTakeIn s (endAttempt t o s) := by
  have leaves : LeavesCopy s (s.withPort s.port.flightLeaves) := .of_eq rfl rfl rfl rfl
  unfold endAttempt
  split
  · exact .inl (attemptFails_leavesCopy ..)
  · exact .inl (attemptFails_leavesCopy ..)
  next spoiled =>
    split
    · exact .inl (attemptSpoiled_leavesCopy ..)
    next hsp =>
      unfold attemptCarried
      dsimp only
      split
      · exact .inl (leaves.trans (enterWithdrawn_leavesCopy _))
      · split
        · exact .inr ⟨t.frame, true, by simp_all, leaves.trans_takesIn (place_takesIn ..)⟩
        · exact .inl leaves

/-- R99, R100: another participant's frame joins the receive queue when no receiver spoils it and the station takes it. -/
theorem receiveFrame_mayTakeIn (word : ArbWord) (payload : List Byte) (check : BitVec 16) (spoiled : Bool) (s : State) :
    MayTakeIn s (receiveFrame word payload check spoiled s) := by
  have same : MayTakeIn s s := .inl (.refl s)
  unfold receiveFrame
  dsimp only
  split
  · exact same
  next hsp =>
    have placed : MayTakeIn s (s.withPort (s.port.place ⟨word, payload⟩)) :=
      .inr ⟨⟨word, payload⟩, check == checkWord word payload, by simp_all [Frame.cls], place_takesIn ..⟩
    unfold carryFrame carriedWithdrawing
    split
    · split
      · split
        · exact same
        · exact placed
      · split
        · exact placed
        · exact same
    · split
      · exact same
      · exact same
      · exact same
      · exact same
      · split
        · exact .inl (enterWithdrawn_leavesCopy s)
        · exact placed
      · split
        · exact .inl (raise_leavesCopy ..)
        · exact placed

/-- R16, R99: a working station spoils the COPY frame that its window could not take. -/
theorem reserve_of_not_spoiled {s : State} {right : Bool} (hw : s.working = true) (h : s.spoils .copy right = false) :
    s.failsReserve = false := by
  have hchecks : s.checks = true := by
    simp only [State.working, Bool.and_eq_true, beq_iff_eq, Bool.not_eq_true'] at hw
    simp [State.checks, State.withdrawing, hw]
  simp [State.spoils, hchecks, hw] at h
  exact h.2

theorem State.CopySound.of_mayTakeIn {s t : State} (h : s.CopySound) (g : MayTakeIn s t) : t.CopySound := by
  rcases g with g | ⟨f, right, hsp, g⟩
  · exact h.of_keepsCopy g.keepsCopy
  · refine ⟨by rw [g.window]; exact h.size, fun hw => ?_⟩
    obtain ⟨hs, hcopies⟩ := g.received hw
    have hreserve := h.reserve hs
    rw [g.window]
    simp only [State.copyReserve, frameItems] at hreserve ⊢
    by_cases hc : f.cls = .copy
    · rw [hc] at hsp
      have hroom := of_decide_eq_false (reserve_of_not_spoiled hs hsp)
      simp only [frameItems] at hroom
      simp only [copyWeight, hc, if_true] at hcopies
      omega
    · simp only [copyWeight, hc, if_false] at hcopies
      omega

/-! ### Commands that free copy (R14) -/

theorem exec_keepsCopy {c : Instr} {s t : State} (hc : c = .takenFrame ∨ c = .recallFrame ∨ c = .killFrame ∨ c = .killEnd)
    (h : exec c s = .next t) : KeepsCopy s t := by
  have out {u : State} (e : exec c s = .next u) (hu : KeepsCopy s u) : KeepsCopy s t := by
    rw [h] at e
    cases e
    exact hu
  rcases hc with rfl | rfl | rfl | rfl
  · exact out rfl (takeHead_keepsCopy handleTaken_keepsCopy s)
  · exact out rfl (takeHead_keepsCopy handleRecall_keepsCopy s)
  · exact out rfl (takeHead_keepsCopy handleKill_keepsCopy s)
  · exact out rfl (.ite ((endKillIfDue_keepsCopy s).trans (settleTally_leavesCopy _).keepsCopy).finish
      (LeavesCopy.refl s).keepsCopy)

/-! ### A VERDICT, and joining (R19, R132, R181) -/

/-- R181: the station as it joins, before anything that follows: its window anchored at end index `e`. -/
def joinedAt (e : CopyIndex) (w : Window) (s : State) : State :=
  { s with
    window := w
    splitter := { s.splitter with cutPoint := e, cutting := true }
    tally := { TallyUnit.initial with roster := s.tally.roster }
    condition := ConditionUnit.initial .active }

/-- What follows a join leaves the copy alone. -/
theorem joinStation_leavesCopy (n : LineNumber) (e : CopyIndex) (w : Window) (s : State) :
    LeavesCopy (joinedAt e w s) (joinStation n e w s) := by
  have entry (u : State) : LeavesCopy u (applyHoldAtEntry u) :=
    .ite ((applyHold_leavesCopy _).after rfl rfl rfl rfl) (.refl u)
  exact (openLine_leavesCopy ..).trans <| (entry _).trans <| (queueMuster_leavesCopy _).trans <|
    (resumeCutting_leavesCopy _).trans (settleTally_leavesCopy _)

/-- R132, R181: a VERDICT leaves the copy alone, or the station joins. -/
theorem handleVerdict_cases (f : Frame) (s : State) :
    LeavesCopy s (handleVerdict f s) ∨ ∃ (u : State) (n : LineNumber) (e : CopyIndex) (w : Window),
      LeavesCopy s u ∧ u.joinAt e = some w ∧ handleVerdict f s = joinStation n e w u := by
  have enrolled : LeavesCopy s (s.withTally (s.tally.enrol f.sender)) := .of_eq rfl rfl rfl rfl
  unfold handleVerdict
  split
  next m _ =>
    dsimp only
    split
    · exact .inl (enrolled.trans (takeVerdict_leavesCopy ..))
    · unfold offerJoin
      split
      · split
        next w hw => exact .inr ⟨_, m.line, m.endIdx, w, enrolled, hw, rfl⟩
        · exact .inl enrolled
      · exact .inl enrolled
  · exact .inl (.refl s)

/-- A head that the station does not take, or of another class, stays. -/
theorem takeHead_cases (c : FrameClass) (act : Frame → State → State) (s : State) :
    takeHead c act s = s ∨ ∃ f rest, s.port.rx = f :: rest ∧ f.cls = c ∧ s.takes = true ∧
      takeHead c act s = finish (act f (s.withPort { s.port with rx := rest })) := by
  cases hr : s.port.rx with
  | nil => exact .inl (by simp [takeHead, hr])
  | cons f rest =>
    by_cases h : f.cls = c ∧ s.takes = true
    · exact .inr ⟨f, rest, rfl, h.1, h.2, takeHead_handles hr h.1 h.2⟩
    · exact .inl (by simp [takeHead, hr, h])

theorem handleVerdict_decoder (f : Frame) (s : State) : (handleVerdict f s).decoder = s.decoder := by
  rcases handleVerdict_cases f s with h | ⟨u, n, e, w, hu, -, h⟩
  · exact h.decoder
  · rw [h, (joinStation_leavesCopy n e w u).decoder]
    exact hu.decoder

theorem exec_mayTakeIn {c : Instr} {s t : State}
    (hc : (∃ o, c = .frameAttemptEnd o) ∨ ∃ word payload check spoiled, c = .frameReceived word payload check spoiled)
    (h : exec c s = .next t) : MayTakeIn s t := by
  rcases hc with ⟨o, rfl⟩ | ⟨word, payload, check, spoiled, rfl⟩
  · change Host.Outcome.next _ = _ at h
    cases h
    split
    · exact (endAttempt_mayTakeIn ..).finish
    · exact .inl (.refl s)
  · change execFrameReceived word payload check spoiled s = _ at h
    unfold execFrameReceived at h
    split at h
    · cases h
      exact receiveFrame_mayTakeIn ..
    · cases h

theorem exec_verdictFrame_decoder {s t : State} (h : exec .verdictFrame s = .next t) : t.decoder = s.decoder := by
  change Host.Outcome.next (takeHead .verdict handleVerdict s) = _ at h
  cases h
  rcases takeHead_cases .verdict handleVerdict s with h | ⟨f, rest, -, -, -, h⟩
  · rw [h]
  · rw [h, decoder_of_calm (finish_calm _)]
    exact handleVerdict_decoder ..

/-- Settles O9: every other command leaves both alone, or lets at most the window lose copy. -/
theorem copyKept : Obligations.CopyKept := by
  unfold Obligations.CopyKept
  intro c s t hpower hreset hcopy hclear hexec
  have takesIn (h : MayTakeIn s t) : t.decoder = s.decoder ∧ t.window = s.window := by
    rcases h with h | ⟨f, right, -, h⟩
    · exact ⟨h.decoder, h.window⟩
    · exact ⟨h.decoder, h.window⟩
  cases c with
  | powerOn => exact absurd rfl hpower
  | resetLineAsserted => exact absurd rfl hreset
  | copyFrame => exact absurd rfl hcopy
  | clearFrame => exact absurd rfl hclear
  | verdictFrame => exact ⟨exec_verdictFrame_decoder hexec, fun h => absurd rfl h⟩
  | takenFrame => exact ⟨(exec_keepsCopy (by simp) hexec).decoder, fun _ h => absurd rfl h⟩
  | recallFrame => exact ⟨(exec_keepsCopy (by simp) hexec).decoder, fun _ _ h => absurd rfl h⟩
  | killFrame => exact ⟨(exec_keepsCopy (by simp) hexec).decoder, fun _ _ _ h => absurd rfl h⟩
  | killEnd => exact ⟨(exec_keepsCopy (by simp) hexec).decoder, fun _ _ _ _ h => absurd rfl h⟩
  | frameAttemptEnd o =>
    obtain ⟨hdecoder, hwindow⟩ := takesIn (exec_mayTakeIn (.inl ⟨o, rfl⟩) hexec)
    exact ⟨hdecoder, fun _ _ _ _ _ => hwindow⟩
  | frameReceived word payload check spoiled =>
    obtain ⟨hdecoder, hwindow⟩ := takesIn (exec_mayTakeIn (.inr ⟨word, payload, check, spoiled, rfl⟩) hexec)
    exact ⟨hdecoder, fun _ _ _ _ _ => hwindow⟩
  | _ =>
    have h := exec_leavesCopy rfl hexec
    exact ⟨h.decoder, fun _ _ _ _ _ => h.window⟩

/-! ### CLEAR (R184) -/

/-- R16: as many COPY frames as the receive queue has places leave an empty window room enough. -/
theorem clearedBlocks_copySound {s : State} (h : s.port.rx.length ≤ receiveSlots) : (clearedBlocks s).CopySound := by
  refine ⟨Nat.zero_le _, fun _ => ?_⟩
  have hcopies : (clearedBlocks s).port.copyFrames ≤ s.port.rx.length := List.countP_le_length
  simp only [receiveSlots] at h
  simp only [State.copyReserve, frameItems]
  change _ ≤ 2048
  omega

theorem handleClear_copySound {s : State} (hs : s.CopySound) (h : s.port.rx.length ≤ receiveSlots) :
    (handleClear s).CopySound := by
  have cleared : (clearStation s).CopySound := (clearedBlocks_copySound h).of_keepsCopy
    ((openLine_leavesCopy ..).trans ((queueMuster_leavesCopy _).trans (settleTally_leavesCopy _))).keepsCopy
  unfold handleClear
  split
  · exact cleared
  · exact cleared
  next hw =>
    split
    · exact cleared
    · have idle : LeavesCopy s (clearWithdrawn s) := .of_idle rfl rfl (by simp [clearWithdrawn, State.working, hw])
      exact hs.of_keepsCopy idle.keepsCopy
  all_goals exact hs

/-- The head of the queue that is removed leaves the bounds. -/
theorem pop_copySound {s : State} {f : Frame} {rest : List Frame} (hs : s.CopySound) (hr : s.port.rx = f :: rest) :
    (s.withPort { s.port with rx := rest }).CopySound :=
  hs.of_keepsCopy (pop_leavesCopy hr).keepsCopy

theorem finish_copySound {s : State} (hs : s.CopySound) : (finish s).CopySound :=
  hs.of_keepsCopy (LeavesCopy.refl s).finish.keepsCopy

theorem exec_clearFrame_copySound {s t : State} (hs : s.CopySound) (hrx : s.port.rx.length ≤ receiveSlots)
    (h : exec .clearFrame s = .next t) : t.CopySound := by
  change execClearFrame s = _ at h
  unfold execClearFrame at h
  cases h
  split
  next f rest hr =>
    have hrest : rest.length ≤ receiveSlots := by
      rw [hr, List.length_cons] at hrx
      omega
    split
    · exact finish_copySound (handleClear_copySound (pop_copySound hs hr) hrest)
    · exact hs
  · exact hs

/-! ### Joining (R181) -/

theorem Window.anchored_count (w : Window) (a e : CopyIndex) : (w.anchored a e).count ≤ w.count :=
  (Window.leaveN_count ..).le.trans (Nat.sub_le ..)

/-- R181: a station joins with a window that can take every COPY frame received. -/
theorem joinStation_copySound {s : State} {n : LineNumber} {e : CopyIndex} {w : Window} (hs : s.CopySound)
    (hj : s.joinAt e = some w) : (joinStation n e w s).CopySound := by
  have joined : (joinedAt e w s).CopySound := by
    unfold State.joinAt at hj
    split at hj
    · cases hj
    next a _ =>
      split at hj
      next hreserve =>
        cases hj
        exact ⟨(Window.anchored_count ..).trans hs.size, fun _ => hreserve⟩
      · cases hj
  exact joined.of_keepsCopy (joinStation_leavesCopy ..).keepsCopy

theorem handleVerdict_copySound {s : State} (f : Frame) (hs : s.CopySound) : (handleVerdict f s).CopySound := by
  rcases handleVerdict_cases f s with h | ⟨u, n, e, w, hu, hj, h⟩
  · exact hs.of_keepsCopy h.keepsCopy
  · rw [h]
    exact joinStation_copySound (hs.of_keepsCopy hu.keepsCopy) hj

/-! ### Copy (R2, R13) -/

/-- R16: the window is within its bound, and a working station's can take `n` items more besides the COPY frames still
received. -/
structure CopyRoom (n : Nat) (s : State) : Prop where
  size : s.window.count ≤ windowSize
  room : s.working = true → s.window.count + n + s.copyReserve ≤ windowSize

theorem CopyRoom.of_keepsCopy {n : Nat} {s t : State} (h : CopyRoom n s) (g : KeepsCopy s t) : CopyRoom n t := by
  refine ⟨g.count.trans h.size, fun hw => ?_⟩
  obtain ⟨hs, hcopies⟩ := g.received hw
  have hcount := g.count
  have hroom := h.room hs
  simp only [State.copyReserve, frameItems, windowSize] at hroom ⊢
  omega

theorem CopyRoom.mono {n m : Nat} {s : State} (h : CopyRoom n s) (hm : m ≤ n) : CopyRoom m s :=
  ⟨h.size, fun hw => by have := h.room hw; omega⟩

theorem CopyRoom.copySound {n : Nat} {s : State} (h : CopyRoom n s) : s.CopySound :=
  ⟨h.size, fun hw => by have := h.room hw; simp only [Window.free]; omega⟩

/-- The decoder is no part of the room. -/
theorem CopyRoom.withDecoder {n : Nat} {s : State} (h : CopyRoom n s) (d : Decoder) : CopyRoom n (s.withDecoder d) :=
  ⟨h.size, h.room⟩

/-- R13, R16: an item that joins takes one place, which a LISTENING station makes first and a working one has. -/
theorem joinWindow_copyRoom {n : Nat} {s : State} (body : ItemBody) (h : CopyRoom (n + 1) s) (hd : s.decodes = true) :
    CopyRoom n (joinWindow body (makeRoom s)) := by
  have hadd (u : State) : (joinWindow body u).window.count = u.window.count + 1 := Window.add_count ..
  by_cases hl : s.condition.state = .listening ∧ windowSize ≤ s.window.count
  · have hmake : makeRoom s = s.withWindow s.window.leave := if_pos hl
    have hidle : (joinWindow body (s.withWindow s.window.leave)).working = false := by
      simp [joinWindow, State.working, hl.1]
    rw [hmake]
    refine ⟨?_, fun hw => by simp [hidle] at hw⟩
    rw [hadd, State.withWindow_window, Window.leave_count]
    have := h.size
    simp only [windowSize] at *
    omega
  · have hmake : makeRoom s = s := if_neg hl
    rw [hmake]
    refine ⟨?_, fun hw => ?_⟩
    · rw [hadd]
      simp only [State.decodes, Bool.or_eq_true, beq_iff_eq] at hd
      rcases hd with hw | hs
      · have := h.room hw
        omega
      · have : ¬ windowSize ≤ s.window.count := fun hfull => hl ⟨hs, hfull⟩
        omega
    · have hroom := h.room hw
      rw [hadd]
      change s.window.count + 1 + n + s.copyReserve ≤ windowSize
      omega

/-- R2, R10: what a completed item sets going gains no further item. -/
theorem completeItem_received (sender : Nat) (body : ItemBody) (s : State) :
    KeepsCopy (joinWindow body (makeRoom s)) (completeItem sender body s) := by
  have refused (u v : State) : LeavesCopy v (raiseRefused sender body u v) := .ite (raise_leavesCopy ..) (.refl v)
  have noted (p : CopyIndex) (u : State) : LeavesCopy u (noteJoinedPara p u) :=
    (LeavesCopy.of_steady (queueNoticesAt_calm ..) (queueNoticesAt_settles ..).steady).after rfl rfl rfl rfl
  have settled (u : State) : KeepsCopy u (settleTally (resumeCutting (endKillIfDue u))) :=
    (endKillIfDue_keepsCopy u).trans ((resumeCutting_leavesCopy _).trans (settleTally_leavesCopy _)).keepsCopy
  exact ((refused ..).trans (.ite (noted ..) (.refl _))).keepsCopy.trans (settled _)

/-- R2: a frame's copy bytes complete at most one item each. -/
theorem decodeBytes_copyRoom (sender : Nat) (bs : List Byte) {s : State} (h : CopyRoom bs.length s) :
    CopyRoom 0 (decodeBytes sender bs s) := by
  induction bs generalizing s with
  | nil => exact h
  | cons b rest ih =>
    unfold decodeBytes
    split
    next hd =>
      split
      next d _ => exact ih ((h.mono (Nat.le_succ _)).withDecoder d)
      next d body _ =>
        exact ih ((joinWindow_copyRoom body (h.withDecoder d) hd).of_keepsCopy (completeItem_received ..))
    · exact h.mono (Nat.zero_le _)

/-- R17 to R19: the sequence check and a copy gap gain no item. -/
theorem checkSequence_copyRoom {n : Nat} (sender : Nat) (payload : List Byte) {s : State} (h : CopyRoom n s) :
    CopyRoom n (checkSequence sender payload s) := by
  have raised (u : State) (c : Cond) (hu : CopyRoom n u) : CopyRoom n (raise c u) :=
    hu.of_keepsCopy (raise_leavesCopy ..).keepsCopy
  have rewritten (u : State) (w : Window) (hw : w.count ≤ u.window.count) (hu : CopyRoom n u) :
      CopyRoom n (u.withWindow w) := hu.of_keepsCopy ((LeavesCopy.refl u).withWindow hw)
  have marked (p : CopyIndex) (g : GapNote) (empty : Bool) (u : State) (hu : CopyRoom n u) :
      CopyRoom n (placeGapMark p g empty u) := by
    unfold placeGapMark
    split
    · exact rewritten _ _ (Window.rewrite_count ..).le hu
    · split
      · exact hu.withDecoder _
      · exact rewritten _ _ (Window.rewrite_count ..).le hu
  have gap (empty : Bool) (u : State) (hu : CopyRoom n u) : CopyRoom n (activeGap sender empty u) := by
    unfold activeGap
    dsimp only
    split
    · exact raised _ _ hu
    · split
      · exact hu
      · split
        · exact raised _ _ hu
        · exact marked _ _ _ _ hu
  unfold checkSequence
  dsimp only
  split
  · exact h.withDecoder _
  · split
    · exact rewritten _ _ ((Window.leaveN_count ..).le.trans (Nat.sub_le ..)) (h.withDecoder _)
    · exact gap _ _ (h.withDecoder _)

/-- R2: a COPY frame decodes at most 60 bytes. -/
theorem decodeCopy_copySound {s : State} (f : Frame) (h : CopyRoom frameItems s) : (decodeCopy f s).CopySound := by
  unfold decodeCopy
  split
  · exact h.copySound
  · have hbytes : (copyBytes f.payload).length ≤ frameItems := List.length_take_le ..
    exact (decodeBytes_copyRoom _ _ ((checkSequence_copyRoom _ _ h).mono hbytes)).copySound

/-- R16: the COPY frame at the head of the queue leaves room for its own items. -/
theorem pop_copyRoom {s : State} {f : Frame} {rest : List Frame} (hs : s.CopySound) (hr : s.port.rx = f :: rest)
    (hc : f.cls = .copy) : CopyRoom frameItems (s.withPort { s.port with rx := rest }) := by
  refine ⟨hs.size, fun hw => ?_⟩
  have hreserve := hs.reserve hw
  have hsize := hs.size
  have hcopies : s.port.copyFrames = rest.countP (fun g => g.cls == .copy) + 1 := by
    rw [BusPort.copyFrames, hr, List.countP_cons_of_pos (by simp [hc])]
  simp only [State.copyReserve, hcopies, Window.free, frameItems, windowSize] at hreserve hsize
  simp only [State.copyReserve, State.withPort_port, State.withPort_window, BusPort.copyFrames, frameItems, windowSize]
  omega

/-! ### Every step -/

/-- A frame at the head of the queue that is handled within the bounds. -/
theorem takeHead_copySound {c : FrameClass} {act : Frame → State → State} {s : State} (hs : s.CopySound)
    (h : ∀ f rest, s.port.rx = f :: rest → f.cls = c → (act f (s.withPort { s.port with rx := rest })).CopySound) :
    (takeHead c act s).CopySound := by
  rcases takeHead_cases c act s with e | ⟨f, rest, hr, hc, -, e⟩
  · rw [e]
    exact hs
  · rw [e]
    exact finish_copySound (h f rest hr hc)

theorem exec_copySound {c : Instr} {s t : State} (hs : s.CopySound) (hrx : s.port.rx.length ≤ receiveSlots)
    (h : exec c s = .next t) : t.CopySound := by
  have out {u : State} (e : exec c s = .next u) (hu : u.CopySound) : t.CopySound := by
    rw [h] at e
    cases e
    exact hu
  have atReset (cart : CartridgePort) (u : State) : (blocksAtReset cart u).CopySound :=
    ⟨Nat.zero_le _, fun hw => by cases hw⟩
  cases c with
  | powerOn => exact out rfl (atReset ..)
  | resetLineAsserted => exact out rfl (atReset ..)
  | copyFrame =>
    exact out rfl (takeHead_copySound hs fun f _ hr hc => decodeCopy_copySound f (pop_copyRoom hs hr hc))
  | clearFrame => exact exec_clearFrame_copySound hs hrx h
  | verdictFrame =>
    exact out rfl (takeHead_copySound hs fun f _ hr _ => handleVerdict_copySound f (pop_copySound hs hr))
  | takenFrame | recallFrame | killFrame | killEnd => exact hs.of_keepsCopy (exec_keepsCopy (by simp) h)
  | frameAttemptEnd o => exact hs.of_mayTakeIn (exec_mayTakeIn (.inl ⟨o, rfl⟩) h)
  | frameReceived word payload check spoiled =>
    exact hs.of_mayTakeIn (exec_mayTakeIn (.inr ⟨word, payload, check, spoiled, rfl⟩) h)
  | _ => exact hs.of_keepsCopy (exec_leavesCopy rfl h).keepsCopy

/-- Settles O58: a COPY frame is received only where the reserve has room for its items, and only CLEAR and joining make a
station work, each with a window that can take what is received. -/
theorem stepKeepsCopySound : Obligations.StepKeepsCopySound := by
  unfold Obligations.StepKeepsCopySound
  intro s t hb hs h
  unfold step at h
  split at h
  · cases h
    exact hs
  next c rest _ =>
    have hpending : (s.withPending rest).CopySound := ⟨hs.size, hs.reserve⟩
    exact exec_copySound hpending hb.receive h

end Sys2Proof.Machine
end

-- ==== proofs: what every operation keeps of the profile and the bounds ====
section
/-! What the shared operations keep: what the profile gives (R39, R97, R176, R179), and the bounds of the splitter's levels (R22,
R25 to R27), the roster (R134), the lists of traps and abort notices (R158), and the segment records (R35, R72). -/

namespace Sys2Proof.Machine

/-! ### What is kept, and how operations compose -/

/-- The fixed part without the pins, the decoder and the queue of commands: the station number and what the profile gives. -/
def Fixed.given (x : Fixed) : Fixed := { x with pins := ⟨false, false⟩, decoder := Decoder.initial, pending := [] }

def State.given (s : State) : Fixed := s.fixed.given

/-- The levels, the embedding stack and the overflow count. -/
def Splitter.embedding (p : Splitter) : Nat × Nat × Nat × List StackEntry × Nat :=
  (p.level, p.baseInForce, p.paraBase, p.stack, p.overflow)

/-- What the bounds are about. -/
structure Watched where
  embedding : Nat × Nat × Nat × List StackEntry × Nat
  roster    : List Nat
  reports   : List Trap
  notices   : List PendingNotice
  records   : Nat
  boxes     : Nat

def State.watched (s : State) : Watched :=
  ⟨s.splitter.embedding, s.tally.roster, s.condition.reports, s.condition.notices, s.shaper.records.length,
    s.shaper.boxes.length⟩

/-- From `s` to `t` every bound that held still holds. -/
structure KeepsSound (s t : State) : Prop where
  splitter : s.SplitterSound → t.SplitterSound
  roster   : s.RosterSound → t.RosterSound
  lists    : s.ListsSound → t.ListsSound
  records  : s.RecordsSound → t.RecordsSound

/-- `KeepsSound`, with the station number and what the profile gives left as they are. -/
structure Keeps (s t : State) : Prop where
  sound : KeepsSound s t
  given : t.given = s.given

theorem given_of_fixed {s t : State} (h : t.fixed = s.fixed) : t.given = s.given := congrArg Fixed.given h

theorem given_of_calm {s t : State} (h : t.calm = s.calm) : t.given = s.given := given_of_fixed (fixed_of_calm h)

theorem State.SplitterSound.of_embedding {s t : State} (hs : s.SplitterSound)
    (h : t.splitter.embedding = s.splitter.embedding) : t.SplitterSound := by
  simp only [Splitter.embedding, Prod.mk.injEq] at h
  obtain ⟨hlevel, hbase, hpara, hstack, hoverflow⟩ := h
  exact ⟨hlevel ▸ hs.level, by rw [hbase, hpara]; exact hs.base, hstack ▸ hs.stack, hoverflow ▸ hs.overflow⟩

/-- What is watched decides the bounds. -/
theorem KeepsSound.of_watched {s t : State} (h : t.watched = s.watched) : KeepsSound s t := by
  simp only [State.watched, Watched.mk.injEq] at h
  obtain ⟨hembedding, hroster, hreports, hnotices, hrecords, hboxes⟩ := h
  refine ⟨fun hs => hs.of_embedding hembedding, ?_, ?_, ?_⟩
  · rw [State.RosterSound, State.RosterSound, hroster]
    exact id
  · rw [State.ListsSound, State.ListsSound, hreports, hnotices]
    exact id
  · rw [State.RecordsSound, State.RecordsSound, hrecords, hboxes]
    exact id

theorem Keeps.of_watched {s t : State} (hg : t.given = s.given) (h : t.watched = s.watched) : Keeps s t :=
  ⟨.of_watched h, hg⟩

theorem Keeps.refl (s : State) : Keeps s s := .of_watched rfl rfl

theorem KeepsSound.trans {s t u : State} (h : KeepsSound s t) (g : KeepsSound t u) : KeepsSound s u :=
  ⟨g.splitter ∘ h.splitter, g.roster ∘ h.roster, g.lists ∘ h.lists, g.records ∘ h.records⟩

theorem Keeps.trans {s t u : State} (h : Keeps s t) (g : Keeps t u) : Keeps s u :=
  ⟨h.sound.trans g.sound, g.given.trans h.given⟩

/-- Lists and records may shrink. -/
theorem Keeps.of_le {s t : State} (hg : t.given = s.given) (he : t.splitter.embedding = s.splitter.embedding)
    (hroster : t.tally.roster = s.tally.roster) (hreports : t.condition.reports.length ≤ s.condition.reports.length)
    (hnotices : t.condition.notices.length ≤ s.condition.notices.length)
    (hrecords : t.shaper.records.length ≤ s.shaper.records.length)
    (hboxes : t.shaper.boxes.length ≤ s.shaper.boxes.length) : Keeps s t := by
  refine ⟨⟨fun hs => hs.of_embedding he, ?_, fun hs => ⟨hreports.trans hs.1, hnotices.trans hs.2⟩,
    fun hs => ⟨hrecords.trans hs.1, hboxes.trans hs.2⟩⟩, hg⟩
  rw [State.RosterSound, State.RosterSound, hroster]
  exact id

/-- Blocks that nothing here is about may be replaced before an operation. -/
theorem Keeps.after {s t u : State} (g : Keeps t u) (hg : t.given = s.given) (h : t.watched = s.watched) : Keeps s u :=
  (Keeps.of_watched hg h).trans g

theorem Keeps.ite {p : Prop} [Decidable p] {s t u : State} (h : Keeps s t) (g : Keeps s u) :
    Keeps s (if p then t else u) := by
  split
  · exact h
  · exact g

theorem Keeps.foldl {α : Type} {f : State → α → State} (h : ∀ s x, Keeps s (f s x)) (l : List α) (s : State) :
    Keeps s (l.foldl f s) := by
  induction l generalizing s with
  | nil => exact .refl s
  | cons x l ih => exact (h s x).trans (ih _)

/-! ### Replacing one block -/

/-- R158: the condition unit may change within the bounds of its lists. -/
theorem withCondition_keeps {s : State} {x : ConditionUnit}
    (h : s.ListsSound → x.reports.length ≤ reportLimit ∧ x.notices.length ≤ pendingNoticeLimit) :
    Keeps s (s.withCondition x) :=
  ⟨⟨fun hs => hs.of_embedding rfl, id, h, id⟩, rfl⟩

theorem withCondition_keeps_of_le {s : State} {x : ConditionUnit}
    (hr : x.reports.length ≤ s.condition.reports.length) (hn : x.notices.length ≤ s.condition.notices.length) :
    Keeps s (s.withCondition x) :=
  .of_le rfl rfl rfl hr hn le_rfl le_rfl

/-- R35, R72: the shaper may change within the bounds of its records. -/
theorem withShaper_keeps {s : State} {x : Shaper}
    (h : s.RecordsSound → x.records.length ≤ recordLimit ∧ x.boxes.length ≤ recordLimit) : Keeps s (s.withShaper x) :=
  ⟨⟨fun hs => hs.of_embedding rfl, id, id, h⟩, rfl⟩

theorem withShaper_keeps_of_le {s : State} {x : Shaper} (hr : x.records.length ≤ s.shaper.records.length)
    (hb : x.boxes.length ≤ s.shaper.boxes.length) : Keeps s (s.withShaper x) :=
  .of_le rfl rfl rfl le_rfl le_rfl hr hb

@[simp] theorem mapRecord_counts (h : Shaper) (i : CopyIndex) (f : SegRecord → SegRecord) :
    (h.mapRecord i f).records.length = h.records.length ∧ (h.mapRecord i f).boxes = h.boxes := by
  simp [Shaper.mapRecord]

@[simp] theorem mapBox_counts (h : Shaper) (p : BoxRecord → Bool) (f : BoxRecord → BoxRecord) :
    (h.mapBox p f).records = h.records ∧ (h.mapBox p f).boxes.length = h.boxes.length := by
  simp [Shaper.mapBox, changeFirst_length]

/-- R138: the placement unit may change as it will, but for the hold response. -/
theorem withPlacement_keeps {s : State} {x : PlacementUnit} (h : x.response = s.placement.response) :
    Keeps s (s.withPlacement x) :=
  .of_watched (by simp only [State.given, State.fixed, State.withPlacement, h]) rfl

/-- R134: the tally unit may change as it will, but for the roster. -/
theorem withTally_keeps {s : State} {x : TallyUnit} (h : x.roster = s.tally.roster) : Keeps s (s.withTally x) :=
  .of_watched rfl (by simp only [State.watched, State.withTally, h])

theorem mapRecord_keeps (s : State) (i : CopyIndex) (f : SegRecord → SegRecord) :
    Keeps s (s.withShaper (s.shaper.mapRecord i f)) :=
  withShaper_keeps_of_le (by simp) (by simp)

theorem mapBox_keeps (s : State) (p : BoxRecord → Bool) (f : BoxRecord → BoxRecord) :
    Keeps s (s.withShaper (s.shaper.mapBox p f)) :=
  withShaper_keeps_of_le (by simp) (by simp)

/-! ### Queues, notices and conditions (R158 to R163) -/

theorem handOver_keeps (who : Producer) (f : Frame) (s : State) : Keeps s (handOver who f s) := by
  refine .of_watched (given_of_calm (handOver_calm ..)) ?_
  rcases handOver_cases who f s with h | h | ⟨u, -, h⟩ <;> rw [h] <;> rfl

theorem sendNotice_keeps (n : Notice) (s : State) : Keeps s (sendNotice n s) := handOver_keeps ..

/-- R160: at most four abort notices wait. -/
theorem sendAbortNotice_keeps (n : Notice) (a : CopyIndex) (s : State) : Keeps s (sendAbortNotice n a s) := by
  unfold sendAbortNotice
  split
  · exact sendNotice_keeps ..
  · split
    next hroom => exact withCondition_keeps fun hs => ⟨hs.1, by simpa using hroom⟩
    · exact .refl s

theorem releasePendingNotices_keeps (s : State) : Keeps s (releasePendingNotices s) := by
  refine Keeps.trans (withCondition_keeps_of_le ?_ ?_) (.foldl (fun _ _ => sendAbortNotice_keeps ..) _ _)
  · exact le_rfl
  · exact List.length_filter_le ..

theorem queueNoticesAt_keeps (p : CopyIndex) (s : State) : Keeps s (queueNoticesAt p s) := by
  refine Keeps.trans (withCondition_keeps_of_le ?_ ?_) (.foldl (fun _ _ => sendNotice_keeps ..) _ _)
  · exact le_rfl
  · exact Nat.zero_le _

/-- R162: at most 32 traps are held. -/
theorem raiseTrap_keeps (t : Trap) (s : State) : Keeps s (raiseTrap t s) := by
  unfold raiseTrap
  split
  · exact sendNotice_keeps ..
  · split
    · exact sendNotice_keeps ..
    · split
      next hroom =>
        have hreports : s.condition.reports.length < reportLimit := (Nat.le_add_right ..).trans_lt hroom
        exact withCondition_keeps fun hs => ⟨by simpa using hreports, hs.2⟩
      · exact .refl s

theorem reportTraps_keeps (n : LineNumber) (holds : CopyIndex → Bool) (s : State) : Keeps s (reportTraps n holds s) := by
  refine Keeps.trans (withCondition_keeps_of_le ?_ ?_) (.foldl (fun _ _ => sendNotice_keeps ..) _ _)
  · exact List.length_filter_le ..
  · exact le_rfl

theorem raiseNamedTrap_keeps (t : Trap) (n : LineNumber) (s : State) : Keeps s (raiseNamedTrap t n s) :=
  .ite (sendNotice_keeps ..) (.refl s)

theorem sendRecall_keeps (c : FrameClass) (r : LineRef) (k : CondCode) (s : State) : Keeps s (sendRecall c r k s) :=
  .ite (.refl s) (handOver_keeps ..)

theorem abandonShaping_keeps (s : State) : Keeps s (abandonShaping s) := by
  refine .of_watched (given_of_calm (abandonShaping_calm s)) ?_
  unfold abandonShaping
  split
  · rfl
  · simp [State.watched]

theorem abandonBox_keeps (s : State) : Keeps s (abandonBox s) := by
  have hboxes : (abandonBox s).shaper.boxes.length ≤ s.shaper.boxes.length := List.length_filter_le ..
  exact ⟨⟨fun hs => hs.of_embedding rfl, id, id, fun hs => ⟨hs.1, hboxes.trans hs.2⟩⟩,
    given_of_calm (abandonBox_calm s)⟩

/-- R172: a withdrawal empties both lists. -/
theorem withdraw_keeps (c : Cond) (cause : Nat) (s : State) : Keeps s (withdraw c cause s) := by
  have abandoned := (abandonShaping_keeps s).trans (abandonBox_keeps _)
  exact ⟨⟨fun hs => (abandoned.sound.splitter hs).of_embedding rfl, abandoned.sound.roster,
    fun _ => ⟨Nat.zero_le _, Nat.zero_le _⟩, abandoned.sound.records⟩, given_of_calm (withdraw_calm ..)⟩

theorem raiseFault_keeps (c : Cond) (s : State) : Keeps s (raiseFault c s) := by
  unfold raiseFault
  split
  · exact sendNotice_keeps ..
  · exact (Keeps.ite (sendRecall_keeps ..) (.refl s)).trans (sendNotice_keeps ..)

theorem raiseAbort_keeps (c : Cond) (s : State) : Keeps s (raiseAbort c s) := by
  unfold raiseAbort
  split
  · exact sendAbortNotice_keeps ..
  · exact (Keeps.ite (.refl s) (sendRecall_keeps ..)).trans (sendAbortNotice_keeps ..)

theorem advanceChoices_keeps (r : Option LineRef) (s : State) : Keeps s (advanceChoices r s) :=
  .ite (.of_watched rfl rfl) (.refl s)

/-- Raising a condition keeps the lists within their bounds and touches nothing else watched. -/
theorem raise_keeps (c : Cond) (s : State) : Keeps s (raise c s) := by
  unfold raise
  refine .ite (.ite (withdraw_keeps ..) (.ite (withdraw_keeps ..) ?_)) (.refl s)
  split
  · exact raiseTrap_keeps ..
  · exact (raiseFault_keeps ..).trans (advanceChoices_keeps ..)
  · exact (raiseAbort_keeps ..).trans (advanceChoices_keeps ..)
  · exact (raiseAbort_keeps ..).trans (advanceChoices_keeps ..)

/-! ### The shaper and the box builder -/

theorem checkStoreFull_keeps (i : CopyIndex) (n : Nat) (s : State) : Keeps s (checkStoreFull i n s) :=
  .ite (raise_keeps ..) (.refl s)

theorem checkWaitingStore_keeps (s : State) : Keeps s (checkWaitingStore s) := by
  have own : ∀ x : Option SegRecord,
      Keeps s (match x with | some r => checkStoreFull r.start r.charCount s | none => s) := by
    intro x
    cases x with
    | none => exact .refl s
    | some r => exact checkStoreFull_keeps ..
  unfold checkWaitingStore
  dsimp only
  split
  · exact (own _).trans (checkStoreFull_keeps ..)
  · exact own _

theorem startNextRead_keeps (s : State) : Keeps s (startNextRead s) :=
  .of_watched (given_of_calm (startNextRead_calm s)) rfl

theorem startMeasure_keeps (s : State) : Keeps s (startMeasure s) := by
  refine .of_watched (given_of_calm (startMeasure_calm s)) ?_
  unfold startMeasure
  repeat' split
  all_goals rfl

theorem restartShaping_keeps (s : State) : Keeps s (restartShaping s) := by
  refine .of_watched (given_of_calm (restartShaping_calm s)) ?_
  unfold restartShaping
  split <;> rfl

theorem shapingViolation_keeps (b : CopyIndex) (k : Nat) (i : CopyIndex) (s : State) :
    Keeps s (shapingViolation b k i s) := by
  have marked : Keeps s (raise ⟨.cartridgeAddress, i, b, none, none, some b⟩
      (s.withCartridge (s.cartridge.markUnusable k))) := (raise_keeps ..).after rfl rfl
  unfold shapingViolation
  refine Keeps.trans ?_ (restartShaping_keeps _)
  split
  · exact marked.trans (raise_keeps ..)
  · exact marked

theorem resumeShaping_keeps (n : Nat) (s : State) : Keeps s (resumeShaping n s) := by
  induction n generalizing s with
  | zero => exact .refl s
  | succ n ih =>
    unfold resumeShaping
    split
    · exact .refl s
    · exact (shapingViolation_keeps ..).trans (ih _)
    · exact raise_keeps ..
    · exact .of_watched rfl rfl
    · exact .refl s

theorem resumeBox_keeps (s : State) : Keeps s (resumeBox s) := by
  unfold resumeBox
  split
  · exact .refl s
  next op _ slot item _ _ =>
    have marked : Keeps s (raise ⟨.cartridgeAddress, item, op.start, none, none, some op.start⟩
        (s.withCartridge (s.cartridge.markUnusable slot))) := (raise_keeps ..).after rfl rfl
    exact (marked.trans (.ite ((restartShaping_keeps _).trans (resumeShaping_keeps ..)) (.refl _))).trans (raise_keeps ..)
  · exact raise_keeps ..
  · exact .of_watched rfl rfl
  · exact .refl s

theorem beginShaping_keeps (r : SegRecord) (s : State) : Keeps s (beginShaping r s) :=
  (withShaper_keeps_of_le (by simp) (by simp)).trans (resumeShaping_keeps ..)

theorem beginBox_keeps (b : BoxRecord) (s : State) : Keeps s (beginBox b s) :=
  (withShaper_keeps_of_le (by simp) (by simp)).trans (resumeBox_keeps _)

theorem grantShaping_keeps (s : State) : Keeps s (grantShaping s) := by
  unfold grantShaping
  split
  · exact .ite (beginShaping_keeps ..) (.refl s)
  · exact .refl s

theorem grantBox_keeps (s : State) : Keeps s (grantBox s) := by
  unfold grantBox
  split
  · exact .ite (beginBox_keeps ..) (.refl s)
  · exact .refl s

theorem grantStore_keeps (s : State) : Keeps s (grantStore s) := by
  have advanced : Keeps s (s.withChoices (s.choices + 1)) := .of_watched rfl rfl
  unfold grantStore
  exact .ite (.ite ((advanced.trans (grantBox_keeps _)).trans (grantShaping_keeps _))
    ((advanced.trans (grantShaping_keeps _)).trans (grantBox_keeps _)))
    ((grantShaping_keeps _).trans (grantBox_keeps _))

theorem startShaping_keeps (s : State) : Keeps s (startShaping s) := by
  unfold startShaping
  refine .ite ?_ (.refl s)
  split
  · exact .refl s
  · exact .ite (beginShaping_keeps ..) ((mapRecord_keeps ..).trans (checkStoreFull_keeps ..))

theorem insertBox_length (b : BoxRecord) (l : List BoxRecord) : (insertBox b l).length = l.length + 1 := by
  induction l with
  | nil => rfl
  | cons x l ih => unfold insertBox; split <;> simp [ih]

/-- R72: a build starts only while a box segment record is free. -/
theorem startBox_keeps (s : State) : Keeps s (startBox s) := by
  unfold startBox
  split
  next hfree =>
    simp only [State.canStartBox, Bool.and_eq_true, decide_eq_true_eq] at hfree
    split
    · exact .refl s
    · have taken (b : BoxRecord) (rest : List BoxPlan) :
          Keeps s (s.withShaper { s.shaper with plan := rest, boxes := insertBox b s.shaper.boxes }) :=
        withShaper_keeps fun hs => ⟨hs.1, (insertBox_length ..).trans_le hfree.1.2⟩
      exact .ite ((taken ..).trans (beginBox_keeps ..)) ((taken ..).trans (checkStoreFull_keeps ..))
  · exact .refl s

theorem publishRecord_keeps (r : SegRecord) (s : State) : Keeps s (publishRecord r s) :=
  (handOver_keeps ..).trans (mapRecord_keeps ..)

theorem publishBox_keeps (b : BoxRecord) (s : State) : Keeps s (publishBox b s) :=
  (handOver_keeps ..).trans (mapBox_keeps ..)

theorem raiseMisses_keeps (l : List CopyIndex) (s : State) : Keeps s (raiseMisses l s) :=
  .foldl (fun _ _ => raise_keeps ..) l s

theorem completeShaping_keeps (s : State) : Keeps s (completeShaping s) := by
  unfold completeShaping
  refine .ite ?_ (.refl s)
  split
  next op r res _ _ =>
    refine .ite (Keeps.trans ?_ (publishRecord_keeps ..)) (.refl s)
    have done : Keeps s ((s.withMeasure s.measure.idle).withShaper
        { s.shaper.mapRecord op.start (fun _ => r.completed res s.measure.numerator) with op := none }) :=
      (withShaper_keeps_of_le (by simp) (by simp)).after rfl rfl
    exact .ite done (done.trans (raiseMisses_keeps ..))
  · exact .refl s

/-- R72: the record that a completed build leaves takes the place of the one it worked on. -/
theorem completeBox_keeps (s : State) : Keeps s (completeBox s) := by
  unfold completeBox
  refine .ite ?_ (.refl s)
  split
  next op b res _ hprogress =>
    have hb : b ∈ s.shaper.boxes := by
      unfold State.boxProgress at hprogress
      split at hprogress
      · cases hprogress
      · obtain ⟨x, hx, heq⟩ := Option.map_eq_some_iff.mp hprogress
        simp only [Prod.mk.injEq] at heq
        exact heq.2.1 ▸ List.mem_of_find?_eq_some hx
    have hcount (d : BoxRecord) : (insertBox d (s.shaper.boxes.erase b)).length = s.shaper.boxes.length := by
      rw [insertBox_length, List.length_erase_add_one hb]
    have done (d : BoxRecord) : Keeps s ((s.withMeasure s.measure.idle).withShaper
        { s.shaper with boxes := insertBox d (s.shaper.boxes.erase b), boxOp := none }) := by
      refine Keeps.after (withShaper_keeps_of_le ?_ ?_) rfl rfl
      · exact le_rfl
      · exact (hcount d).le
    exact .ite ((done _).trans (publishBox_keeps ..)) (.refl s)
  · exact .refl s

/-! ### Own segment records (R35, R73, R74) -/

theorem insertRecord_length (r : SegRecord) (l : List SegRecord) : (insertRecord r l).length = l.length + 1 := by
  induction l with
  | nil => rfl
  | cons x l ih => unfold insertRecord; split <;> simp [ih]

/-- R74: the pending remainder takes a record only when one is free. -/
theorem placeRemainder_keeps (s : State) : Keeps s (placeRemainder s) := by
  unfold placeRemainder
  split
  · split
    next hfree => exact withShaper_keeps fun hs => ⟨(insertRecord_length ..).trans_le hfree, hs.2⟩
    · exact .refl s
  · exact .refl s

theorem cutSegment_keeps (n : LineNumber) (i : CopyIndex) (o : TallyOpp) (s : State) : Keeps s (cutSegment n i o s) := by
  unfold cutSegment
  split
  · split
    · exact .ite ((withShaper_keeps_of_le (by simp) (by simp)).trans (placeRemainder_keeps _)) (.refl s)
    · exact .refl s
  · exact .refl s

/-- R35, R36: a segment opens only while a record is free; the box segment records stand. -/
theorem openSegment_counts (p : Splitter) (h : Shaper) (i : CopyIndex) (k l : Nat) :
    (h.records.length ≤ recordLimit → (openSegment p h i k l).1.records.length ≤ recordLimit) ∧
      (openSegment p h i k l).1.boxes = h.boxes := by
  unfold openSegment
  split
  next hfree =>
    simp only [Shaper.recordFree, Bool.and_eq_true, decide_eq_true_eq] at hfree
    exact ⟨fun _ => (insertRecord_length ..).trans_le hfree.1, rfl⟩
  · exact ⟨id, rfl⟩

/-- R33 to R36: an item that is cut closes, lengthens or opens a segment, within the records there are. -/
theorem cutItem_counts (p : Splitter) (h : Shaper) (i : CopyIndex) (it : Item) :
    (h.records.length ≤ recordLimit → (cutItem p h i it).1.records.length ≤ recordLimit) ∧
      (cutItem p h i it).1.boxes = h.boxes := by
  have closed (b : Bool) : (h.closeSegment b).records.length = h.records.length := List.length_map ..
  have joined : (h.joinSegment i).records.length = h.records.length := List.length_map ..
  have opened (b : Bool) (k l : Nat) :
      (h.records.length ≤ recordLimit → (openSegment p (h.closeSegment b) i k l).1.records.length ≤ recordLimit) ∧
        (openSegment p (h.closeSegment b) i k l).1.boxes = h.boxes := by
    obtain ⟨hrecords, hboxes⟩ := openSegment_counts p (h.closeSegment b) i k l
    exact ⟨fun hl => hrecords ((closed b).trans_le hl), hboxes⟩
  unfold cutItem
  split
  · exact ⟨id, rfl⟩
  · split
    · exact ⟨id, rfl⟩
    · exact ⟨(closed false).trans_le, rfl⟩
    · split
      · exact openSegment_counts ..
      · split
        · split
          · exact ⟨joined.trans_le, rfl⟩
          · exact opened ..
        · exact opened ..

theorem runCutter_keeps (n : Nat) (s : State) : Keeps s (runCutter n s) := by
  have cut (s : State) (it : Item) : Keeps s (s.withShaper (cutItem s.splitter s.shaper s.splitter.cutPoint it).1) := by
    obtain ⟨hrecords, hboxes⟩ := cutItem_counts s.splitter s.shaper s.splitter.cutPoint it
    exact withShaper_keeps fun hs => ⟨hrecords hs.1, hboxes ▸ hs.2⟩
  induction n generalizing s with
  | zero => exact .refl s
  | succ n ih =>
    unfold runCutter
    refine .ite ?_ (.refl s)
    split
    · exact .ite ((cut s _).trans ((ih _).after rfl rfl)) (cut s _)
    · exact .ite ((ih _).after rfl rfl) (.refl s)

theorem resumeCutting_keeps (s : State) : Keeps s (resumeCutting s) := runCutter_keeps ..

/-! ### The placement unit, and what a freeing sets going (R104, R148) -/

theorem pumpFrames_keeps (n : Nat) (s : State) : Keeps s (pumpFrames n s) := by
  induction n generalizing s with
  | zero => exact .refl s
  | succ n ih =>
    unfold pumpFrames
    refine .ite ?_ (.refl s)
    split
    · exact .refl s
    · refine ((withPlacement_keeps ?_).trans (handOver_keeps ..)).trans (ih _)
      rfl

theorem pump_keeps (s : State) : Keeps s (pump s) := pumpFrames_keeps ..

theorem enterWaiting_keeps (w : WaitingFrame) (s : State) : Keeps s (enterWaiting w s) := by
  unfold enterWaiting
  split
  · exact .refl s
  · dsimp only
    split
    · exact (mapRecord_keeps ..).after rfl rfl
    · exact (mapBox_keeps ..).after rfl rfl
    · exact (pump_keeps _).after rfl rfl
    all_goals exact .of_watched rfl rfl

theorem settleFrames_keeps (n : Nat) (s : State) : Keeps s (settleFrames n s) := by
  induction n generalizing s with
  | zero => exact .refl s
  | succ n ih =>
    unfold settleFrames
    split
    · exact (enterWaiting_keeps ..).trans (ih _)
    · exact .refl s

theorem settleSlots_keeps (s : State) : Keeps s (settleSlots s) := settleFrames_keeps ..

theorem settle_keeps (s : State) : Keeps s (settle s) :=
  (settleSlots_keeps s).trans <| (placeRemainder_keeps _).trans <| (resumeCutting_keeps _).trans <|
    (grantStore_keeps _).trans <| (startMeasure_keeps _).trans (startNextRead_keeps _)

/-- What an event sets going in the other blocks keeps the profile and the bounds. -/
theorem finish_keeps (s : State) : Keeps s (finish s) :=
  .ite ((settle_keeps s).trans (pump_keeps _)) (startNextRead_keeps s)

theorem settleFreed_keeps (s : State) : Keeps s (settleFreed s) := .ite (settle_keeps s) (.refl s)

/-- A command that acts in some states and then settles. -/
theorem Keeps.guarded {p : Prop} [Decidable p] {s t : State} (h : Keeps s t) :
    Keeps s (if p then Machine.finish t else s) := .ite (h.trans (finish_keeps t)) (.refl s)

/-! ### The tally unit -/

theorem requeueHeldMuster_keeps (s : State) : Keeps s (requeueHeldMuster s) := by
  unfold requeueHeldMuster
  split
  · exact (handOver_keeps ..).after rfl rfl
  · exact .refl s

theorem queueMuster_keeps (s : State) : Keeps s (queueMuster s) := (handOver_keeps ..).after rfl rfl

theorem openLine_keeps (r : LineRecord) (s : State) : Keeps s (openLine r s) :=
  .ite ((requeueHeldMuster_keeps _).after rfl rfl) (.of_watched rfl rfl)

theorem checkGapMark_keeps (s : State) : Keeps s (checkGapMark s) := by
  unfold checkGapMark
  split
  · exact .ite ((Keeps.foldl (fun _ _ => raise_keeps ..) _ _).after rfl rfl) (.refl s)
  · exact .refl s

theorem runScan_keeps (s : State) : Keeps s (runScan s) := by
  unfold runScan
  split
  · dsimp only
    split
    · exact (raise_keeps ..).after rfl rfl
    · exact .of_watched rfl rfl
  · exact .refl s

theorem compareVerdict_keeps (r : LineRecord) (n : Nat) (f : Figures) (s : State) : Keeps s (compareVerdict r n f s) :=
  .ite (.refl s) (raise_keeps ..)

theorem cutAtBreak_keeps (r : LineRecord) (b : Break) (s : State) : Keeps s (cutAtBreak r b s) := by
  unfold cutAtBreak
  split
  · exact .ite (cutSegment_keeps ..) (.refl s)
  · exact .refl s

/-- R126, R127: a decision may open a segment record for the remainder and hold traps, within the bounds. -/
theorem decideLine_keeps (r : LineRecord) (p : LineParams) (s : State) : Keeps s (decideLine r p s) := by
  unfold decideLine
  extract_lets b st d s1 s2 lost s3 s4 s5 s6 s7
  have h1 : Keeps s s1 := withTally_keeps (by unfold TallyUnit.unfence; split <;> rfl)
  have h2 : Keeps s1 s2 := cutAtBreak_keeps ..
  have h3 : Keeps s2 s3 := handOver_keeps ..
  have placed : Keeps s3 (placeDecided d st s3) := .of_watched rfl rfl
  have h4 : Keeps s3 s4 := placed.trans ((pump_keeps _).trans (openLine_keeps ..))
  have h5 : Keeps s4 s5 := (Keeps.ite (raise_keeps ..) (.refl s4)).trans (.ite (raise_keeps ..) (.refl _))
  have h6 : Keeps s5 s6 := .foldl (fun _ _ => raise_keeps ..) _ _
  have h7 : Keeps s6 s7 := .foldl (fun _ _ => compareVerdict_keeps ..) _ _
  exact h1.trans <| h2.trans <| h3.trans <| h4.trans <| h5.trans <| h6.trans <| h7.trans <|
    .ite (checkWaitingStore_keeps _) (.refl _)

theorem decideIfDue_keeps (s : State) : Keeps s (decideIfDue s) := by
  unfold decideIfDue
  split
  · split
    · exact .ite (decideLine_keeps ..) (.refl s)
    · exact .refl s
  · exact .refl s

theorem tallyRound_keeps (s : State) : Keeps s (tallyRound s) :=
  (checkGapMark_keeps s).trans <| (runScan_keeps _).trans (decideIfDue_keeps _)

/-- The scan and the decisions it leads to keep the profile and the bounds. -/
theorem settleTally_keeps (s : State) : Keeps s (settleTally s) := by
  have timed (u : State) (b : Option (LineNumber × CopyIndex)) : Keeps u (u.withTally (u.tally.timeCoverage b)) :=
    withTally_keeps (by unfold TallyUnit.timeCoverage; split <;> [rfl; (split <;> rfl)])
  have rounds := (tallyRound_keeps s).trans <| (tallyRound_keeps _).trans (tallyRound_keeps _)
  exact .ite (.ite (rounds.trans (timed ..)) rounds) (.refl s)

/-! ### Operations that free copy -/

theorem freeSegments_keeps (e : CopyIndex) (s : State) : Keeps s (freeSegments e s) := by
  refine (Keeps.ite (abandonShaping_keeps s) (.refl s)).trans <|
    (Keeps.ite (abandonBox_keeps _) (.refl _)).trans (withShaper_keeps_of_le ?_ ?_)
  · exact List.length_filter_le ..
  · exact List.length_filter_le ..

theorem killSegments_keeps (e : CopyIndex) (s : State) : Keeps s (killSegments e s) := by
  refine (Keeps.ite (abandonShaping_keeps s) (.refl s)).trans <|
    (Keeps.ite (abandonBox_keeps _) (.refl _)).trans (withShaper_keeps_of_le ?_ ?_)
  · exact (List.length_map ..).trans_le (List.length_filter_le ..)
  · exact List.length_filter_le ..

theorem undoCuts_keeps (n : LineNumber) (s : State) : Keeps s (undoCuts n s) := by
  refine (Keeps.ite (abandonShaping_keeps s) (.refl s)).trans (withShaper_keeps_of_le ?_ ?_)
  · exact (List.length_map ..).trans_le (List.length_filter_le ..)
  · exact le_rfl

end Sys2Proof.Machine
end

-- ==== proofs: the embedding stack and copy ====
section
/-! The embedding stack (R22 to R29), and what a COPY frame and the items it completes keep of the profile and the bounds. -/

namespace Sys2Proof.Machine

/-! ### Pushes and pops (R26, R28) -/

theorem lt_askedLevel (kind : PushKind) (c : Nat) : c < askedLevel kind c := by
  cases kind <;> simp only [askedLevel] <;> split <;> omega

theorem askedLevel_parity (kind : PushKind) (c : Nat) : askedLevel kind c % 2 = if kind = .rtl then 1 else 0 := by
  cases kind <;> simp only [askedLevel, reduceCtorEq, if_true, if_false] <;> split <;> omega

/-- R26: no level of the parity asked for lies between. -/
theorem askedLevel_le {kind : PushKind} {c l : Nat} (hl : c < l) (hp : l % 2 = if kind = .rtl then 1 else 0) :
    askedLevel kind c ≤ l := by
  cases kind <;> simp only [askedLevel, reduceCtorEq, if_true, if_false] at hp ⊢ <;> split <;> omega

section
variable {p : Splitter} {kind : PushKind} {page : Nat}

theorem takesPush_iff : p.takesPush kind = true ↔ askedLevel kind p.level ≤ 15 ∧ p.stack.length < 15 := by
  simp [Splitter.takesPush]

theorem push_taken (h : p.takesPush kind = true) : p.push kind page =
    { p with stack := ⟨askedLevel kind p.level, kind, page⟩ :: p.stack, level := askedLevel kind p.level } :=
  if_pos h

theorem push_refused (h : ¬ p.takesPush kind = true) :
    p.push kind page = { p with overflow := min 255 (p.overflow + 1) } := if_neg h

theorem pop_overflow (h : 0 < p.overflow) : p.pop page = ({ p with overflow := p.overflow - 1 }, page) := if_pos h

theorem pop_empty (h : p.overflow = 0) (hs : p.stack = []) : p.pop page = (p, page) := by
  simp [Splitter.pop, h, hs]

theorem pop_top {top : StackEntry} {rest : List StackEntry} (h : p.overflow = 0) (hs : p.stack = top :: rest) :
    p.pop page =
      ({ p with stack := rest, level := (rest.head?.map StackEntry.level).getD p.paraBase }, top.page) := by
  cases rest <;> simp [Splitter.pop, h, hs]

/-- R28: a POP gives back the level, the stack and the page base that stood before the push it answers. -/
theorem pop_push {page' : Nat} (ht : p.takesPush kind = true) (h : p.overflow = 0)
    (hl : p.level = (p.stack.head?.map StackEntry.level).getD p.paraBase) :
    (p.push kind page).pop page' = (p, page) := by
  rw [push_taken ht, pop_top (rest := p.stack) (by exact h) rfl, ← hl]

end

/-- Settles O14: by the equations of push and pop, one for each case. -/
theorem embeddingStack : Obligations.EmbeddingStack := by
  unfold Obligations.EmbeddingStack
  refine ⟨fun kind c => ⟨lt_askedLevel kind c, askedLevel_parity kind c, fun _ => askedLevel_le⟩, ?_⟩
  intro p kind page page'
  exact ⟨takesPush_iff, push_taken, pop_overflow, fun _ _ => pop_top, pop_empty, rfl, rfl, rfl, rfl, pop_push⟩

/-! ### The bounds of the splitter (R22, R25 to R29) -/

/-- The bounds of `State.SplitterSound`, of a splitter by itself. -/
structure Splitter.Sound (p : Splitter) : Prop where
  level    : p.level ≤ 15
  base     : p.baseInForce ≤ 1 ∧ p.paraBase ≤ 1
  stack    : p.stack.length ≤ 15 ∧ ∀ e ∈ p.stack, e.level ≤ 15
  overflow : p.overflow ≤ 255

theorem splitterSound_iff (s : State) : s.SplitterSound ↔ s.splitter.Sound :=
  ⟨fun h => ⟨h.level, h.base, h.stack, h.overflow⟩, fun h => ⟨h.level, h.base, h.stack, h.overflow⟩⟩

section
variable {p : Splitter}

theorem closeStart_sound (h : p.Sound) : p.closeStart.Sound := by
  unfold Splitter.closeStart
  split
  · exact ⟨h.level, ⟨h.base.1, h.base.1⟩, h.stack, h.overflow⟩
  · exact h

/-- R26, R27: a push is taken within the bounds, and a refused one counts to 255. -/
theorem push_sound (h : p.Sound) (kind : PushKind) (page : Nat) : (p.push kind page).Sound := by
  by_cases ht : p.takesPush kind = true
  · obtain ⟨hlevel, hroom⟩ := takesPush_iff.mp ht
    rw [push_taken ht]
    exact ⟨hlevel, h.base, ⟨hroom, List.forall_mem_cons.mpr ⟨hlevel, h.stack.2⟩⟩, h.overflow⟩
  · rw [push_refused ht]
    exact ⟨h.level, h.base, h.stack, Nat.min_le_left ..⟩

theorem pop_sound (h : p.Sound) (page : Nat) : (p.pop page).1.Sound := by
  by_cases ho : p.overflow = 0
  · cases hs : p.stack with
    | nil => rwa [pop_empty ho hs]
    | cons top rest =>
      obtain ⟨hlen, hlevels⟩ := h.stack
      rw [hs] at hlen hlevels
      have hrest : ∀ e ∈ rest, e.level ≤ 15 := fun e he => hlevels e (List.mem_cons_of_mem _ he)
      rw [pop_top ho hs]
      refine ⟨?_, h.base, ⟨(Nat.le_succ _).trans hlen, hrest⟩, h.overflow⟩
      cases rest with
      | nil => exact h.base.2.trans (by decide)
      | cons e _ => exact hrest e List.mem_cons_self
  · rw [pop_overflow (Nat.pos_of_ne_zero ho)]
    exact ⟨h.level, h.base, h.stack, (Nat.sub_le ..).trans h.overflow⟩

theorem endPara_sound (h : p.Sound) : p.endPara.Sound :=
  ⟨h.base.1.trans (by decide), h.base, ⟨Nat.zero_le _, by simp [Splitter.endPara]⟩, Nat.zero_le _⟩

theorem setBase_sound (h : p.Sound) {v : Nat} (hv : v ≤ 1) : (p.setBase v).Sound := by
  unfold Splitter.setBase
  split
  · exact ⟨hv.trans (by decide), ⟨hv, h.base.2⟩, h.stack, h.overflow⟩
  · exact ⟨h.level, ⟨hv, h.base.2⟩, h.stack, h.overflow⟩

/-- R8: a BASE item's level is 0 or 1. -/
def ItemBody.baseFits (b : ItemBody) : Prop := ∀ v, b = .base v → v ≤ 1

/-- R23: stamping an item keeps the bounds. -/
theorem stamp_sound (h : p.Sound) (page : Nat) {b : ItemBody} (hb : b.baseFits) : (p.stamp page b).splitter.Sound := by
  have hclose := closeStart_sound h
  cases b with
  | character | softHyphen => exact hclose
  | para => exact endPara_sound hclose
  | ltrEmbed | rtlEmbed => exact push_sound hclose ..
  | pop => exact pop_sound hclose page
  | base v => exact setBase_sound h (hb v rfl)
  | size | set | font => exact ⟨h.level, h.base, h.stack, h.overflow⟩
  | space | thin | page | measure | lead | quad | spread => exact h

/-- R23: stamping an item leaves the claim table and the fallback flag. -/
theorem stamp_claims (page : Nat) (b : ItemBody) :
    (p.stamp page b).splitter.claims = p.claims ∧ (p.stamp page b).splitter.fallback = p.fallback := by
  have hclose : p.closeStart.claims = p.claims ∧ p.closeStart.fallback = p.fallback := by
    unfold Splitter.closeStart
    split <;> exact ⟨rfl, rfl⟩
  have hpush (q : Splitter) (kind : PushKind) : (q.push kind page).claims = q.claims ∧
      (q.push kind page).fallback = q.fallback := by
    unfold Splitter.push
    split <;> exact ⟨rfl, rfl⟩
  have hpop (q : Splitter) : (q.pop page).1.claims = q.claims ∧ (q.pop page).1.fallback = q.fallback := by
    unfold Splitter.pop
    split
    · exact ⟨rfl, rfl⟩
    · split <;> exact ⟨rfl, rfl⟩
  have hbase (v : Nat) : (p.setBase v).claims = p.claims ∧ (p.setBase v).fallback = p.fallback := by
    unfold Splitter.setBase
    split <;> exact ⟨rfl, rfl⟩
  cases b with
  | character | softHyphen | para => exact hclose
  | ltrEmbed => exact ⟨(hpush _ .ltr).1.trans hclose.1, (hpush _ .ltr).2.trans hclose.2⟩
  | rtlEmbed => exact ⟨(hpush _ .rtl).1.trans hclose.1, (hpush _ .rtl).2.trans hclose.2⟩
  | pop => exact ⟨(hpop _).1.trans hclose.1, (hpop _).2.trans hclose.2⟩
  | base v => exact hbase v
  | size | set | font | space | thin | page | measure | lead | quad | spread => exact ⟨rfl, rfl⟩

end

/-! ### The items that copy bytes complete (R3 to R9) -/

theorem baseFits_ite {c : Prop} [Decidable c] {x : ItemBody} {y : Option ItemBody} (hx : x.baseFits)
    (hy : ∀ b, y = some b → b.baseFits) : ∀ b, (if c then some x else y) = some b → b.baseFits := by
  split
  · rintro b ⟨⟩
    exact hx
  · exact hy

theorem plainItem_baseFits (page b : Nat) : ∀ body, plainItem page b = some body → body.baseFits :=
  baseFits_ite nofun <| baseFits_ite nofun <| baseFits_ite nofun <| baseFits_ite nofun <| baseFits_ite nofun <|
    baseFits_ite nofun <| baseFits_ite nofun nofun

/-- R8: every operand of BASE but 1 counts as 0. -/
theorem operandItem_baseFits (l v : Nat) : ∀ body, operandItem l v = some body → body.baseFits := by
  have level : (ItemBody.base (if v = 1 then 1 else 0)).baseFits := by
    rintro n ⟨⟩
    split <;> decide
  exact baseFits_ite nofun <| baseFits_ite nofun <| baseFits_ite nofun <| baseFits_ite nofun <| baseFits_ite nofun <|
    baseFits_ite nofun <| baseFits_ite nofun <| baseFits_ite nofun <| baseFits_ite nofun <| baseFits_ite level <|
    baseFits_ite nofun nofun

theorem complete_item (d : Decoder) (x : Option ItemBody) : (d.complete x).2 = x := by
  unfold Decoder.complete
  dsimp only
  split <;> rfl

theorem byte_baseFits {d : Decoder} {b : Byte} {body : ItemBody} (h : (d.byte b).2 = some body) : body.baseFits := by
  unfold Decoder.byte at h
  split at h
  · split at h
    · exact plainItem_baseFits _ _ _ ((complete_item ..).symm.trans h)
    · cases h
  · split at h
    · cases h
    · exact operandItem_baseFits _ _ _ ((complete_item ..).symm.trans h)
  · exact operandItem_baseFits _ _ _ ((complete_item ..).symm.trans h)

/-! ### A completed item (R10) -/

theorem makeRoom_keeps (s : State) : Keeps s (makeRoom s) :=
  .of_watched (given_of_fixed (makeRoom_fixed s)) (by unfold makeRoom; split <;> rfl)

/-- R10, R23: an item that joins the window changes the splitter as stamping it does. -/
theorem joinWindow_keeps {body : ItemBody} (hb : body.baseFits) (s : State) : Keeps s (joinWindow body s) := by
  obtain ⟨hclaims, hfallback⟩ := stamp_claims (p := s.splitter) s.decoder.pageBase body
  refine ⟨⟨fun hs => (splitterSound_iff _).mpr (stamp_sound ((splitterSound_iff s).mp hs) _ hb), id, id, id⟩, ?_⟩
  simp only [State.given, Fixed.given, State.fixed, joinWindow, hclaims, hfallback]

theorem noteJoinedPara_keeps (p : CopyIndex) (s : State) : Keeps s (noteJoinedPara p s) :=
  (queueNoticesAt_keeps ..).after rfl rfl

/-- R162: the traps named when a kill's line opens stand in the report list as far as it has room. -/
theorem nameUnreported_keeps (i : CopyIndex) (s : State) : Keeps s (nameUnreported i s) := by
  have named (x : List Trap) : Keeps (s.withPlacement { s.placement with unreported := [] })
      ((s.withPlacement { s.placement with unreported := [] }).withCondition
        { s.condition with reports := x.take reportLimit }) :=
    withCondition_keeps fun hs => ⟨List.length_take_le .., hs.2⟩
  exact (named _).after rfl rfl

theorem endKill_keeps (k : KillInProgress) (p : CopyIndex) (s : State) : Keeps s (endKill k p s) := by
  have opened (u : State) (r : LineRecord) : Keeps u (releasePendingNotices (openLine r u)) :=
    (openLine_keeps ..).trans (releasePendingNotices_keeps _)
  have named : Keeps s (nameUnreported (p + 1) { s with
      condition := { s.condition with kill := none }
      tally := { s.tally with fence := some k.next } }) := (nameUnreported_keeps ..).after rfl rfl
  exact (named.trans (opened ..)).trans (.of_watched rfl rfl)

theorem endKillIfDue_keeps (s : State) : Keeps s (endKillIfDue s) := by
  unfold endKillIfDue
  split
  · split
    · exact endKill_keeps ..
    · exact .of_watched rfl rfl
  · exact .refl s

theorem completeItem_keeps (sender : Nat) {body : ItemBody} (hb : body.baseFits) (s : State) :
    Keeps s (completeItem sender body s) := by
  have joined := (makeRoom_keeps s).trans (joinWindow_keeps hb _)
  have refused (u v : State) : Keeps v (raiseRefused sender body u v) := .ite (raise_keeps ..) (.refl v)
  exact joined.trans <| (refused ..).trans <| (Keeps.ite (noteJoinedPara_keeps ..) (.refl _)).trans <|
    (endKillIfDue_keeps _).trans <| (resumeCutting_keeps _).trans (settleTally_keeps _)

/-! ### The COPY frame (R2, R17) -/

theorem withDecoder_keeps (s : State) (d : Decoder) : Keeps s (s.withDecoder d) := .of_watched rfl rfl

theorem decodeBytes_keeps (sender : Nat) (bs : List Byte) (s : State) : Keeps s (decodeBytes sender bs s) := by
  induction bs generalizing s with
  | nil => exact .refl s
  | cons b rest ih =>
    unfold decodeBytes
    refine .ite ?_ (.refl s)
    split
    next d _ => exact (withDecoder_keeps s d).trans (ih _)
    next d body hbyte =>
      have hb : body.baseFits := byte_baseFits (congrArg Prod.snd hbyte)
      exact (withDecoder_keeps s d).trans ((completeItem_keeps sender hb _).trans (ih _))

theorem activeGap_keeps (sender : Nat) (empty : Bool) (s : State) : Keeps s (activeGap sender empty s) := by
  have marked (p : CopyIndex) (g : GapNote) : Keeps s (placeGapMark p g empty s) :=
    .ite (.of_watched rfl rfl) (.ite (.of_watched rfl rfl) (.of_watched rfl rfl))
  unfold activeGap
  dsimp only
  split
  · exact raise_keeps ..
  · split
    · exact .refl s
    · split
      · exact raise_keeps ..
      · exact marked ..

theorem checkSequence_keeps (sender : Nat) (payload : List Byte) (s : State) :
    Keeps s (checkSequence sender payload s) := by
  have taken := withDecoder_keeps s (s.decoder.sequence (wordField payload 0))
  exact .ite taken (.ite (taken.trans (.of_watched rfl rfl)) (taken.trans (activeGap_keeps ..)))

theorem decodeCopy_keeps (f : Frame) (s : State) : Keeps s (decodeCopy f s) :=
  .ite (.refl s) ((checkSequence_keeps ..).trans (decodeBytes_keeps ..))

end Sys2Proof.Machine
end

-- ==== proofs: the profile and the bounds, command by command ====
section
/-! What every command keeps: but for the start-up commands what the profile gives, and always the bounds of the splitter, the
roster, the lists and the records. -/

namespace Sys2Proof.Machine

/-! ### The roster (R134) -/

theorem mem_rosterInsert {n m : Nat} {l : List Nat} (h : m ∈ rosterInsert n l) : m = n ∨ m ∈ l := by
  induction l with
  | nil => exact .inl (List.mem_singleton.mp h)
  | cons x l ih =>
    unfold rosterInsert at h
    split at h
    · exact .inr h
    · split at h
      · exact List.mem_cons.mp h
      · rcases List.mem_cons.mp h with rfl | h
        · exact .inr List.mem_cons_self
        · exact (ih h).imp_right (List.mem_cons_of_mem _)

/-- R134: the roster stays in rising order, with no duplicates. -/
theorem rosterInsert_pairwise (n : Nat) {l : List Nat} (h : l.Pairwise (· < ·)) : (rosterInsert n l).Pairwise (· < ·) := by
  induction l with
  | nil => exact List.pairwise_singleton ..
  | cons x l ih =>
    obtain ⟨hx, hl⟩ := List.pairwise_cons.mp h
    unfold rosterInsert
    split
    · exact h
    · split
      next hlt =>
        refine List.pairwise_cons.mpr ⟨List.forall_mem_cons.mpr ⟨hlt, fun m hm => hlt.trans (hx m hm)⟩, h⟩
      next hne hnlt =>
        refine List.pairwise_cons.mpr ⟨fun m hm => ?_, ih hl⟩
        rcases mem_rosterInsert hm with rfl | hm
        · omega
        · exact hx m hm

theorem withRoster_keeps {s : State} {x : TallyUnit}
    (h : s.RosterSound → x.roster.Pairwise (· < ·) ∧ ∀ m ∈ x.roster, m < 8) : Keeps s (s.withTally x) :=
  ⟨⟨fun hs => hs.of_embedding rfl, h, id, id⟩, rfl⟩

theorem enrol_keeps (s : State) (n : Nat) : Keeps s (s.withTally (s.tally.enrol n)) := by
  refine withRoster_keeps fun hs => ?_
  unfold TallyUnit.enrol
  split
  next hn =>
    refine ⟨rosterInsert_pairwise n hs.1, fun m hm => ?_⟩
    rcases mem_rosterInsert hm with rfl | hm
    · exact hn
    · exact hs.2 m hm
  · exact hs

theorem strike_keeps (s : State) (n : Nat) : Keeps s (s.withTally (s.tally.strike n)) :=
  withRoster_keeps fun hs => ⟨hs.1.filter _, fun m hm => hs.2 m (List.mem_of_mem_filter hm)⟩

/-! ### Frames at the head of the receive queue (R101) -/

theorem takeHead_keeps {c : FrameClass} {act : Frame → State → State} (h : ∀ f u, Keeps u (act f u)) (s : State) :
    Keeps s (takeHead c act s) := by
  rcases takeHead_cases c act s with e | ⟨f, rest, -, -, -, e⟩ <;> rw [e]
  · exact .refl s
  · exact Keeps.after ((h f _).trans (finish_keeps _)) rfl rfl

theorem takeMeasure_keeps (r : LineRecord) (g : SegItem) (s : State) : Keeps s (takeMeasure r g s) := by
  have enter : Keeps s (enterSegment r g s) :=
    .ite (.of_watched rfl rfl) (.ite (.refl s) ((raise_keeps ..).after rfl rfl))
  unfold takeMeasure
  split
  · exact .ite (raise_keeps ..) (.refl s)
  · exact .ite enter (.ite (.ite (.refl s) (.of_watched rfl rfl)) (.ite (.refl s) (raise_keeps ..)))

theorem handleMeasure_keeps (f : Frame) (s : State) : Keeps s (handleMeasure f s) := by
  have restart : Keeps s (s.withTally s.tally.restartCoverage) :=
    withTally_keeps (by unfold TallyUnit.restartCoverage; split <;> rfl)
  have route (m : MeasureMsg) (u : State) : Keeps u (routeMeasure f.sender m u) := by
    unfold routeMeasure
    refine .ite ?_ (.refl u)
    split
    · exact takeMeasure_keeps ..
    · exact .refl u
  unfold handleMeasure
  split
  · exact .ite (restart.trans ((route ..).trans (settleTally_keeps _))) (.refl s)
  · exact .refl s

theorem handleMuster_keeps (f : Frame) (s : State) : Keeps s (handleMuster f s) := .ite (enrol_keeps ..) (.refl s)

theorem handleNotice_keeps (f : Frame) (s : State) : Keeps s (handleNotice f s) := by
  unfold handleNotice
  split
  · exact .ite (strike_keeps ..) (.refl s)
  · exact .refl s

theorem applyHold_keeps (s : State) : Keeps s (applyHold s) := by
  unfold applyHold
  split
  · exact .of_watched rfl rfl
  · exact .of_watched rfl rfl
  · exact (settleSlots_keeps _).after rfl rfl

theorem applyRelease_keeps (s : State) : Keeps s (applyRelease s) := by
  unfold applyRelease
  split
  · exact .of_watched rfl rfl
  · exact .of_watched rfl rfl
  · exact (pump_keeps _).after rfl rfl

theorem handleHold_keeps (f : Frame) (s : State) : Keeps s (handleHold f s) :=
  .ite (.refl s) (.ite ((applyHold_keeps _).after rfl rfl) (.of_watched rfl rfl))

theorem handleRelease_keeps (f : Frame) (s : State) : Keeps s (handleRelease f s) :=
  .ite (.ite ((applyRelease_keeps _).after rfl rfl) (.of_watched rfl rfl)) (.refl s)

theorem trySendLine_keeps (n : LineNumber) (s : State) : Keeps s (trySendLine n s) :=
  .of_watched (given_of_calm (trySendLine_calm ..)) rfl

theorem handlePlace_keeps (f : Frame) (s : State) : Keeps s (handlePlace f s) := by
  have carry (m : PlaceMsg) : Keeps s (carryPlace m s) := by
    unfold carryPlace
    split
    · exact .ite (.ite ((trySendLine_keeps ..).after rfl rfl) (.of_watched rfl rfl)) (.refl s)
    · exact .refl s
  unfold handlePlace
  split
  · exact .ite (carry _) (.refl s)
  · exact .refl s

/-! ### Verdicts (R132) and joining (R181) -/

/-- R136, R171: the end of the kill period leaves the lists. -/
theorem Keeps.endPeriod {s t : State} {p : Prop} [Decidable p] (hg : t.given = s.given)
    (he : t.splitter.embedding = s.splitter.embedding) (hroster : t.tally.roster = s.tally.roster)
    (hc : t.condition = if p then { s.condition with killPeriod := none } else s.condition)
    (hshaper : t.shaper = s.shaper) : Keeps s t := by
  have hlists : t.condition.reports = s.condition.reports ∧ t.condition.notices = s.condition.notices := by
    rw [hc]
    split <;> exact ⟨rfl, rfl⟩
  refine .of_watched hg ?_
  simp only [State.watched, he, hroster, hlists, hshaper]

theorem ownVerdictCarried_keeps (r : LineRecord) (s : State) : Keeps s (ownVerdictCarried r s) := by
  unfold ownVerdictCarried
  refine Keeps.trans ?_ ((trySendLine_keeps ..).trans (reportTraps_keeps ..))
  exact .endPeriod rfl rfl rfl rfl rfl

theorem takeVerdict_keeps (n : Nat) (m : VerdictMsg) (s : State) : Keeps s (takeVerdict n m s) := by
  have matched (r : LineRecord) : Keeps s (matchVerdict r n m s) := by
    have store : Keeps s (s.withTally (s.tally.mapLine r.number (fun x => x.store ⟨n, m.gen, m.figures⟩))) :=
      .of_watched rfl rfl
    exact .ite (.ite store ((store.trans (compareVerdict_keeps ..)).trans (.ite (ownVerdictCarried_keeps ..) (.refl _))))
      (.ite (.refl s) (raise_keeps ..))
  unfold takeVerdict
  refine .ite (.refl s) ?_
  split
  · exact matched _
  · split
    · exact .ite (raiseNamedTrap_keeps ..) (.refl s)
    · split
      · exact .ite (raise_keeps ..) (.refl s)
      · exact .refl s

/-- R181: a station that joins keeps its roster, and its lists start empty. -/
theorem joinStation_keeps (n : LineNumber) (e : CopyIndex) (w : Window) (s : State) : Keeps s (joinStation n e w s) := by
  have joined : Keeps s (joinedAt e w s) := .of_le rfl rfl rfl (Nat.zero_le _) (Nat.zero_le _) le_rfl le_rfl
  have entry (u : State) : Keeps u (applyHoldAtEntry u) := .ite ((applyHold_keeps _).after rfl rfl) (.refl u)
  exact joined.trans <| (openLine_keeps ..).trans <| (entry _).trans <| (queueMuster_keeps _).trans <|
    (resumeCutting_keeps _).trans (settleTally_keeps _)

theorem handleVerdict_keeps (f : Frame) (s : State) : Keeps s (handleVerdict f s) := by
  unfold handleVerdict
  split
  · refine .ite ((enrol_keeps ..).trans (takeVerdict_keeps ..)) ((enrol_keeps ..).trans (.ite ?_ (.refl _)))
    split
    · exact joinStation_keeps ..
    · exact .refl _
  · exact .refl s

/-! ### Lines taken, recalled and killed (R136, R165, R168) -/

theorem takeLine_keeps (s : State) (r : LineRecord) : Keeps s (takeLine s r) := by
  refine ⟨?_, given_of_fixed (takeLine_fixed s r)⟩
  unfold takeLine
  extract_lets e s1 s2
  have freed (u : State) : Keeps u (settleFreed (freeSegments e u)) := (freeSegments_keeps ..).trans (settleFreed_keeps _)
  have h1 : KeepsSound s s1 := by
    refine KeepsSound.trans ?_ (freed _).sound
    exact .of_watched rfl
  have h2 : KeepsSound s1 s2 := (reportTraps_keeps ..).sound
  refine h1.trans (h2.trans (Keeps.sound ?_))
  exact .endPeriod rfl rfl rfl rfl rfl

theorem handleTaken_keeps (f : Frame) (s : State) : Keeps s (handleTaken f s) := by
  unfold handleTaken
  split
  · exact .ite ((Keeps.foldl takeLine_keeps _ s).trans (settleTally_keeps _)) (.refl s)
  · exact .refl s

theorem recallBlocks_keeps (r : LineRecord) (s : State) : Keeps s (recallBlocks r s) := by
  refine Keeps.trans (.of_le ?_ ?_ ?_ ?_ ?_ ?_ ?_) (undoCuts_keeps ..)
  · simp only [State.given, State.fixed, release_response]
    rfl
  · rfl
  · rfl
  · exact List.length_filter_le ..
  all_goals exact le_rfl

theorem firstRecall_keeps (r : LineRecord) (s : State) : Keeps s (firstRecall r s) := by
  have published (u : State) (x : Published) : Keeps u (publish u x) := by
    cases x with
    | own r => exact publishRecord_keeps ..
    | box b => exact publishBox_keeps ..
  exact (recallBlocks_keeps r s).trans <| (settleFreed_keeps _).trans <| (Keeps.foldl published _ _).trans <|
    (checkWaitingStore_keeps _).trans (settleTally_keeps _)

/-- R168: the cut point's return leaves the rest of the splitter. -/
theorem cutBack_rest (p : Splitter) (para : Option CopyIndex) :
    (p.cutBack para).embedding = p.embedding ∧ (p.cutBack para).claims = p.claims ∧
      (p.cutBack para).fallback = p.fallback := by
  unfold Splitter.cutBack
  split
  · split <;> exact ⟨rfl, rfl, rfl⟩
  · exact ⟨rfl, rfl, rfl⟩

theorem killBlocks_keeps (n : LineNumber) (start : CopyIndex) (s : State) : Keeps s (killBlocks n start s) := by
  obtain ⟨hembedding, hclaims, hfallback⟩ := cutBack_rest s.splitter (s.window.para? start)
  refine Keeps.trans (.of_le ?_ ?_ ?_ ?_ ?_ ?_ ?_) (killSegments_keeps ..)
  · simp only [State.given, State.fixed, release_response, hclaims, hfallback]
    rfl
  · exact hembedding
  · rfl
  · exact List.length_filter_le ..
  all_goals exact le_rfl

theorem startKill_keeps (n : LineNumber) (start : CopyIndex) (s : State) : Keeps s (startKill n start s) :=
  (killBlocks_keeps ..).trans <| (settleFreed_keeps _).trans <| (endKillIfDue_keeps _).trans (settleTally_keeps _)

theorem handleKill_keeps (f : Frame) (s : State) : Keeps s (handleKill f s) := by
  have matched (m : RecallMsg) : Keeps s (matchKill m s) := by
    unfold matchKill
    refine .ite (.refl s) ?_
    split
    · exact .refl s
    · exact .ite (startKill_keeps ..) (.refl s)
  unfold handleKill
  split
  · exact .ite (matched _) (.refl s)
  · exact .refl s

theorem handleRecall_keeps (f : Frame) (s : State) : Keeps s (handleRecall f s) := by
  have late (m : RecallMsg) : Keeps s (lateRecall f.sender m s) := .ite (raiseNamedTrap_keeps ..) (.refl s)
  have matched (m : RecallMsg) : Keeps s (matchRecall f.sender m s) := by
    unfold matchRecall
    refine .ite (late m) ?_
    split
    · exact .refl s
    · exact .ite (.refl s) <| .ite (startKill_keeps ..) <| .ite (.refl s) <| .ite (startKill_keeps ..) (firstRecall_keeps ..)
  unfold handleRecall
  split
  · exact .ite (matched _) (.refl s)
  · exact .refl s

/-! ### CLEAR (R183, R184) -/

/-- R184: CLEAR keeps the station number and what the profile gives, and puts what is bounded at its reset values. -/
theorem clearedBlocks_keeps (s : State) : Keeps s (clearedBlocks s) :=
  ⟨⟨fun _ => splitterSound_reset.of_embedding rfl, fun _ => rosterSound_reset,
    fun _ => ⟨Nat.zero_le _, Nat.zero_le _⟩, fun _ => ⟨Nat.zero_le _, Nat.zero_le _⟩⟩, rfl⟩

theorem handleClear_keeps (s : State) : Keeps s (handleClear s) := by
  have cleared : Keeps s (clearStation s) := (clearedBlocks_keeps s).trans <| (openLine_keeps ..).trans <|
    (queueMuster_keeps _).trans (settleTally_keeps _)
  unfold handleClear
  split
  · exact cleared
  · exact cleared
  · exact .ite cleared (.of_watched rfl rfl)
  all_goals exact .refl s

/-! ### The bus (R99 to R112) -/

theorem enterWithdrawn_keeps (s : State) : Keeps s (enterWithdrawn s) := .of_watched rfl rfl

theorem attemptFails_keeps (t : TxFrame) (s : State) : Keeps s (attemptFails t s) := by
  unfold attemptFails
  split <;> exact .of_watched rfl rfl

theorem dropFrame_keeps (f : Frame) (s : State) : Keeps s (dropFrame f s) := by
  have measure (i : CopyIndex) : Keeps s (dropMeasure i s) := by
    unfold dropMeasure
    refine .ite (.refl s) ?_
    split
    · exact .ite (.refl s) (raise_keeps ..)
    · exact .refl s
  have line (n : LineNumber) (g : Nat) : Keeps s (dropLineFrame n g s) := by
    unfold dropLineFrame
    split
    · exact .ite (.refl s) (raise_keeps ..)
    · exact .refl s
  unfold dropFrame
  split
  · exact measure _
  · exact line ..
  · exact line ..
  · exact .ite (.of_watched rfl rfl) (.refl s)
  · exact raise_keeps ..
  · exact raise_keeps ..
  all_goals exact .refl s

theorem place_keeps (f : Frame) (s : State) : Keeps s (s.withPort (s.port.place f)) := by
  unfold BusPort.place
  split <;> exact .of_watched rfl rfl

theorem endAttempt_keeps (t : TxFrame) (o : AttemptOutcome) (s : State) : Keeps s (endAttempt t o s) := by
  have spoiled : Keeps s (attemptSpoiled t s) :=
    .ite (attemptFails_keeps ..) <| .ite (.of_watched rfl rfl) <| .ite (.of_watched rfl rfl)
      (((settleSlots_keeps _).trans (dropFrame_keeps ..)).after rfl rfl)
  have carried : Keeps s (attemptCarried t s) :=
    .ite (.of_watched rfl rfl) (.ite ((place_keeps ..).after rfl rfl) (.of_watched rfl rfl))
  unfold endAttempt
  split
  · exact attemptFails_keeps ..
  · exact attemptFails_keeps ..
  · exact .ite spoiled carried

theorem receiveFrame_keeps (word : ArbWord) (payload : List Byte) (check : BitVec 16) (spoiled : Bool) (s : State) :
    Keeps s (receiveFrame word payload check spoiled s) := by
  have withdrawing (f : Frame) (right : Bool) : Keeps s (carriedWithdrawing f right s) :=
    .ite (.ite (.refl s) (place_keeps ..)) (.ite (place_keeps ..) (.refl s))
  have carried (f : Frame) (right : Bool) : Keeps s (carryFrame f right s) := by
    unfold carryFrame
    refine .ite (withdrawing ..) ?_
    split
    · exact .refl s
    · exact .refl s
    · exact .refl s
    · exact .refl s
    · exact .ite (enterWithdrawn_keeps s) (place_keeps ..)
    · exact .ite (raise_keeps ..) (place_keeps ..)
  exact .ite (.refl s) (carried ..)

/-! ### The cartridge and the profile (R40, R54, R177 to R179) -/

theorem removeCartridge_keeps (s : State) : Keeps s (removeCartridge (abandonCartridgeWork s)) := by
  have abandoned : Keeps s (abandonCartridgeWork s) :=
    ((abandonShaping_keeps s).trans (abandonBox_keeps _)).trans (.of_watched rfl rfl)
  refine abandoned.trans ?_
  unfold removeCartridge
  split
  · exact .of_watched rfl rfl
  · exact enterWithdrawn_keeps _
  · exact raise_keeps ..
  all_goals exact .refl _

/-- R179: a profile word touches nothing bounded, though the last one distributes the profile. -/
theorem receiveProfileWord_keepsSound (w : CartWord) (s : State) : KeepsSound s (receiveProfileWord w s) := by
  refine .of_watched ?_
  unfold receiveProfileWord profileRead
  split
  · rfl
  · split_ifs <;> rfl

theorem receiveShaperWord_keeps (w : CartWord) (s : State) : Keeps s (receiveShaperWord w s) :=
  (resumeShaping_keeps ..).after rfl rfl

theorem receiveBoxWord_keeps (w : CartWord) (s : State) : Keeps s (receiveBoxWord w s) :=
  (resumeBox_keeps _).after rfl rfl

theorem receiveWord_keepsSound (o : OutstandingRead) (w : CartWord) (s : State) : KeepsSound s (receiveWord o w s) := by
  have freed : KeepsSound s (s.withCartridge { s.cartridge with outstanding := none }) := .of_watched rfl
  unfold receiveWord
  dsimp only
  split
  · exact freed
  · split
    · exact freed.trans (receiveProfileWord_keepsSound ..)
    · exact freed.trans (receiveShaperWord_keeps ..).sound
    · exact freed.trans (receiveBoxWord_keeps ..).sound

theorem enterProfiling_keepsSound (s : State) : KeepsSound s (enterProfiling s) := by
  refine .of_watched ?_
  unfold enterProfiling
  split <;> rfl

theorem blocksAtReset_keepsSound (cart : CartridgePort) (s u : State) : KeepsSound s (blocksAtReset cart u) :=
  ⟨fun _ => splitterSound_reset.of_embedding rfl, fun _ => rosterSound_reset,
    fun _ => ⟨Nat.zero_le _, Nat.zero_le _⟩, fun _ => ⟨Nat.zero_le _, Nat.zero_le _⟩⟩

/-! ### Timers, traps and what is outstanding -/

theorem reportDue_keeps (s : State) : Keeps s (reportDue s) := by
  have line (u : State) (r : LineRecord) : Keeps u (reportLine u r) := .ite (reportTraps_keeps ..) (.refl u)
  have lines : Keeps s (s.tally.inHand.foldl reportLine s) := .foldl line _ _
  unfold reportDue
  dsimp only
  split
  · exact lines.trans (reportTraps_keeps ..)
  · exact lines

theorem planBoxes_keeps (s : State) : Keeps s (planBoxes s) := by
  unfold planBoxes
  split
  · exact .ite (.of_watched rfl rfl) (.refl s)
  · exact .refl s

theorem raiseCoverageTimeout_keeps (s : State) : Keeps s (raiseCoverageTimeout s) := by
  unfold raiseCoverageTimeout
  split
  · exact raise_keeps ..
  · exact .refl s

/-- R135: members that have not answered leave the roster. -/
theorem expireVerdictWait_keeps (n : LineNumber) (s : State) : Keeps s (expireVerdictWait n s) := by
  have lose (r : LineRecord) (u : State) (m : Nat) : Keeps u (loseStation r u m) :=
    (strike_keeps ..).trans (raiseNamedTrap_keeps ..)
  unfold expireVerdictWait
  dsimp only
  split
  · exact (Keeps.foldl (lose _) _ _).after rfl rfl
  · exact .of_watched rfl rfl

theorem raiseLongHold_keeps (s : State) : Keeps s (raiseLongHold s) := by
  unfold raiseLongHold
  split
  · exact raise_keeps ..
  · exact .ite (.of_watched rfl rfl) (.refl s)

/-! ### Every command -/

/-- R176, R177: the commands of start-up, which write the station number and what the profile gives. -/
def startsUp : Instr → Bool
  | .powerOn | .resetLineAsserted | .resetLineReleased _ | .cartridgeReadComplete _ => true
  | _ => false

theorem exec_keeps {c : Instr} {s t : State} (hc : startsUp c = false) (h : exec c s = .next t) : Keeps s t := by
  have out {u : State} (e : exec c s = .next u) (hu : Keeps s u) : Keeps s t := by
    rw [h] at e
    cases e
    exact hu
  cases c with
  | powerOn | resetLineAsserted | resetLineReleased | cartridgeReadComplete => cases hc
  | cartridgePresentFall =>
    exact out rfl (.ite (.ite (.of_watched rfl rfl) ((removeCartridge_keeps _).after rfl rfl)) (.refl s))
  | cartridgePresentRise => exact out rfl (.of_watched rfl rfl)
  | frameAttemptStart => exact out rfl (.ite (.of_watched rfl rfl) (.refl s))
  | frameAttemptEnd o =>
    refine out rfl ?_
    split
    · exact (endAttempt_keeps ..).trans (finish_keeps _)
    · exact .refl s
  | frameReceived word payload check spoiled =>
    change execFrameReceived word payload check spoiled s = _ at h
    unfold execFrameReceived at h
    split at h
    · cases h
      exact receiveFrame_keeps ..
    · cases h
  | clearFrame =>
    refine out rfl ?_
    split
    · exact .guarded ((handleClear_keeps _).after rfl rfl)
    · exact .refl s
  | copyFrame => exact out rfl (takeHead_keeps decodeCopy_keeps s)
  | cuttingResumed => exact out rfl (.guarded (resumeCutting_keeps s))
  | shapingStart => exact out rfl (.guarded (startShaping_keeps s))
  | storeWaitGranted => exact out rfl (.guarded (grantStore_keeps s))
  | shapingComplete => exact out rfl (.guarded (completeShaping_keeps s))
  | boxBuildStart => exact out rfl (.guarded (startBox_keeps s))
  | boxBuildComplete => exact out rfl (.guarded (completeBox_keeps s))
  | pendingRemainderRecord => exact out rfl (.guarded (placeRemainder_keeps s))
  | waitingFrameEnters => exact out rfl (.guarded (settleSlots_keeps s))
  | measureFrame => exact out rfl (takeHead_keeps handleMeasure_keeps s)
  | deferredDecision => exact out rfl (.guarded (settleTally_keeps s))
  | deferredCopyGap => exact out rfl (.guarded (checkGapMark_keeps s))
  | verdictFrame => exact out rfl (takeHead_keeps handleVerdict_keeps s)
  | trapReport => exact out rfl (.guarded (reportDue_keeps s))
  | musterFrame => exact out rfl (takeHead_keeps handleMuster_keeps s)
  | noticeFrame => exact out rfl (takeHead_keeps handleNotice_keeps s)
  | takenFrame => exact out rfl (takeHead_keeps handleTaken_keeps s)
  | holdFrame => exact out rfl (takeHead_keeps handleHold_keeps s)
  | releaseFrame => exact out rfl (takeHead_keeps handleRelease_keeps s)
  | placeFrame => exact out rfl (takeHead_keeps handlePlace_keeps s)
  | recallFrame => exact out rfl (takeHead_keeps handleRecall_keeps s)
  | killFrame => exact out rfl (takeHead_keeps handleKill_keeps s)
  | killEnd => exact out rfl (.guarded ((endKillIfDue_keeps s).trans (settleTally_keeps _)))
  | heldMusterRequeued => exact out rfl (.guarded (requeueHeldMuster_keeps s))
  | pendingAbortNotice => exact out rfl (.guarded (releasePendingNotices_keeps s))
  | unassignedClass => exact out rfl (takeHead_keeps (fun _ u => .refl u) s)
  | coverageTimerFirstEnd => exact out rfl (.guarded ((planBoxes_keeps _).after rfl rfl))
  | coverageTimerSecondEnd => exact out rfl (.guarded ((raiseCoverageTimeout_keeps _).after rfl rfl))
  | verdictWaitExpiry =>
    refine out rfl ?_
    split
    · exact .guarded (expireVerdictWait_keeps ..)
    · exact .refl s
  | longHoldExpiry => exact out rfl (.guarded ((raiseLongHold_keeps _).after rfl rfl))

/-- Every command keeps the bounds, those of start-up too. -/
theorem exec_keepsSound {c : Instr} {s t : State} (h : exec c s = .next t) : KeepsSound s t := by
  have out {u : State} (e : exec c s = .next u) (hu : KeepsSound s u) : KeepsSound s t := by
    rw [h] at e
    cases e
    exact hu
  cases c with
  | powerOn => exact out rfl (blocksAtReset_keepsSound ..)
  | resetLineAsserted => exact out rfl (blocksAtReset_keepsSound ..)
  | resetLineReleased straps =>
    refine out rfl ?_
    split
    · refine KeepsSound.trans ?_ (enterProfiling_keepsSound _)
      exact .of_watched rfl
    · exact (Keeps.refl s).sound
  | cartridgeReadComplete word =>
    refine out rfl ?_
    split
    · exact (receiveWord_keepsSound ..).trans (finish_keeps _).sound
    · exact (Keeps.refl s).sound
  | _ => exact (exec_keeps rfl h).sound

/-- Settles O8: only the commands of start-up write what is given. -/
theorem profileValuesKept : Obligations.ProfileValuesKept := by
  unfold Obligations.ProfileValuesKept
  intro c s t hpower hreset hreleased hread hexec
  have hc : startsUp c = false := by
    cases c with
    | powerOn => exact absurd rfl hpower
    | resetLineAsserted => exact absurd rfl hreset
    | resetLineReleased x => exact absurd rfl (hreleased x)
    | cartridgeReadComplete w => exact absurd rfl (hread w)
    | _ => rfl
  have hg := (exec_keeps hc hexec).given
  exact ⟨congrArg Fixed.station hg, congrArg Fixed.levels hg, congrArg Fixed.profileCopy hg, congrArg Fixed.directory hg,
    congrArg Fixed.size hg, congrArg Fixed.claims hg, congrArg Fixed.fallback hg, congrArg (fun x => x.units.1) hg,
    congrArg (fun x => x.units.2.1) hg, congrArg (fun x => x.units.2.2.1) hg, congrArg (fun x => x.units.2.2.2) hg,
    congrArg Fixed.response hg⟩

/-! ### Every step -/

theorem step_keepsSound {s t : State} (h : step s = .next t) : KeepsSound s t := by
  unfold step at h
  split at h
  · cases h
    exact (Keeps.refl s).sound
  · refine KeepsSound.trans ?_ (exec_keepsSound h)
    exact .of_watched rfl

/-- Settles O59: only an item that joins, CLEAR and reset change the levels and the stack, each within the bounds. -/
theorem stepKeepsSplitterSound : Obligations.StepKeepsSplitterSound := by
  unfold Obligations.StepKeepsSplitterSound
  exact fun s t hs h => (step_keepsSound h).splitter hs

/-- Settles O60: what enters the roster, the lists or the records enters where there is room. -/
theorem stepKeepsListsSound : Obligations.StepKeepsListsSound := by
  unfold Obligations.StepKeepsListsSound
  exact fun s t h => ⟨(step_keepsSound h).roster, (step_keepsSound h).lists, (step_keepsSound h).records⟩

end Sys2Proof.Machine
end

-- ==== proofs: stalled cutting ====
section
/-! Stalled cutting goes on where a record is free (R32 to R36). -/

namespace Sys2Proof.Machine

/-- R32: a cut point that has reached the end of the copy stays, however many items the cutter may examine. -/
theorem runCutter_done {s : State} (n : Nat)
    (h : s.splitter.cutting = false ∨
      (s.window.holds s.splitter.cutPoint = false ∧ s.window.behind s.splitter.cutPoint = false)) :
    runCutter n s = s := by
  cases n with
  | zero => rfl
  | succ n =>
    unfold runCutter
    rcases h with h | ⟨hholds, hbehind⟩
    · simp [h]
    · simp [item_none_of_not_held hholds, hbehind]

/-- R32, R33: the cutter goes past an item that it need not stall at. -/
theorem runCutter_past {s : State} {it : Item} {h : Shaper} (n : Nat) (hcut : s.splitter.cutting = true)
    (hit : s.window.item? s.splitter.cutPoint = some it)
    (hitem : cutItem s.splitter s.shaper s.splitter.cutPoint it = (h, true)) :
    runCutter (n + 1) s =
      runCutter n ((s.withSplitter { s.splitter with cutPoint := s.splitter.cutPoint + 1 }).withShaper h) := by
  rw [runCutter, if_pos hcut, hit]
  simp only [hitem, if_true]
  rfl

/-- R35: with no segment open, an own character opens one in a free record. -/
theorem cutItem_opens {p : Splitter} {h : Shaper} {i : CopyIndex} {it : Item} {k lvl : Nat} (hk : it.killed = false)
    (he : it.cutEffect = .own k lvl) (hc : h.cutting? = none) (hfree : h.recordFree = true) :
    cutItem p h i it =
      ({ h with records := insertRecord (SegRecord.opening i k lvl (p.classOf k)) h.records }, true) := by
  simp [cutItem, hk, he, hc, openSegment, hfree]

theorem mem_insertRecord {r x : SegRecord} {l : List SegRecord} (h : x ∈ insertRecord r l) : x = r ∨ x ∈ l := by
  induction l with
  | nil => exact .inl (List.mem_singleton.mp h)
  | cons y l ih =>
    unfold insertRecord at h
    split at h
    · exact List.mem_cons.mp h
    · rcases List.mem_cons.mp h with rfl | h
      · exact .inr List.mem_cons_self
      · exact (ih h).imp_right (List.mem_cons_of_mem _)

/-- A record that does not wait for store room leaves a quiet state quiet. -/
theorem quiet_insertRecord {s : State} {r : SegRecord} (h : s.quiet = true) (hr : r.state ≠ .storeWait) :
    (s.withShaper { s.shaper with records := insertRecord r s.shaper.records }).quiet = true := by
  have hrecords : (insertRecord r s.shaper.records).all (fun x => x.state != .storeWait) = true := by
    refine List.all_eq_true.mpr fun x hx => bne_iff_ne.mpr ?_
    rcases mem_insertRecord hx with rfl | hx
    · exact hr
    · exact (quiet_parts h).1 x hx
  simp only [State.quiet, State.noStoreWait, Bool.and_eq_true] at h ⊢
  obtain ⟨⟨⟨⟨hwaits, -, hboxes⟩, hop⟩, hboxOp⟩, hunreported⟩ := h
  exact ⟨⟨⟨⟨hwaits, hrecords, hboxes⟩, hop⟩, hboxOp⟩, hunreported⟩

/-- Settles O15: the cutter goes past the one character it had stalled at, and then nothing is left to do. -/
theorem cuttingResumes : Obligations.CuttingResumes := by
  unfold Obligations.CuttingResumes
  intro s it k lvl hw hcut hit hkilled heffect hopen hfree hquiet
  have hq := quiet_insertRecord hquiet
    (r := SegRecord.opening s.splitter.cutPoint k lvl (s.splitter.classOf k)) (by simp [SegRecord.opening])
  obtain ⟨-, -, -, -, -, -, -, -, hdone, -⟩ := quiet_parts hq
  change Host.Outcome.next (if s.working then finish (resumeCutting s) else s) = _
  rw [if_pos hw, resumeCutting, runCutter_past _ hcut hit (cutItem_opens hkilled heffect hopen hfree)]
  exact congrArg Host.Outcome.next ((congrArg finish (runCutter_done _ hdone)).trans (finish_quiet hq))

end Sys2Proof.Machine
end

-- ==== proofs: what a raised condition leaves of the cartridge ====
section
/-! Faults, withdrawals and the cartridge removed: the cartridge port and the operations (R40, R52, R54, R163). -/

namespace Sys2Proof.Machine

/-! ### A withdrawal and the work it abandons (R40, R53) -/

theorem abandonShaping_op (s : State) : (abandonShaping s).shaper.op = none := by
  unfold abandonShaping
  split
  · assumption
  · rfl

theorem abandonBox_boxOp (s : State) : (abandonBox s).shaper.boxOp = none := rfl

theorem abandonBox_op (s : State) : (abandonBox s).shaper.op = s.shaper.op := rfl

theorem abandonShaping_cartridge (s : State) :
    (abandonShaping s).cartridge.usable = s.cartridge.usable ∧
      (s.cartridge.waiting = [] → (abandonShaping s).cartridge.waiting = []) := by
  unfold abandonShaping
  split
  · exact ⟨rfl, id⟩
  · exact ⟨rfl, fun h => by simp [CartridgePort.abandon, h]⟩

theorem abandonBox_cartridge (s : State) :
    (abandonBox s).cartridge.usable = s.cartridge.usable ∧
      (s.cartridge.waiting = [] → (abandonBox s).cartridge.waiting = []) :=
  ⟨rfl, fun h => by simp [abandonBox, CartridgePort.abandon, h]⟩

theorem withdraw_shaper (c : Cond) (cause : Nat) (s : State) :
    (withdraw c cause s).shaper.op = none ∧ (withdraw c cause s).shaper.boxOp = none :=
  ⟨(abandonBox_op _).trans (abandonShaping_op s), abandonBox_boxOp (abandonShaping s)⟩

/-- A withdrawal keeps the usability flags, and makes no read wait. -/
theorem withdraw_cartridge (c : Cond) (cause : Nat) (s : State) :
    (withdraw c cause s).cartridge.usable = s.cartridge.usable ∧
      (s.cartridge.waiting = [] → (withdraw c cause s).cartridge.waiting = []) := by
  obtain ⟨husable, hwaiting⟩ := abandonShaping_cartridge s
  obtain ⟨husable', hwaiting'⟩ := abandonBox_cartridge (abandonShaping s)
  exact ⟨husable'.trans husable, fun h => hwaiting' (hwaiting h)⟩

theorem withdraw_not_working (c : Cond) (cause : Nat) (s : State) : (withdraw c cause s).working = false := by
  simp [State.working, (withdraw_port c cause s).2]

/-- R163: a withdraw condition at a working station begins a withdrawal. -/
theorem raise_withdraw {c : Cond} {s : State} (hw : s.working = true) (hc : c.code.cls = .withdraw) :
    raise c s = withdraw c 0 s := by
  simp [raise, hw, hc]

/-- R159: a station that does not work raises nothing. -/
theorem raise_idle {c : Cond} {s : State} (hw : s.working = false) : raise c s = s := by
  simp [raise, hw]

/-! ### What a fault changes (R163) -/

/-- From `s` to `t` the port and the counter of free values alone may change, and a withdrawal stays pending or not. -/
def SendsOnly (s t : State) : Prop :=
  ∃ p n, t = (s.withPort p).withChoices n ∧ p.withdrawalPending = s.port.withdrawalPending

theorem SendsOnly.refl (s : State) : SendsOnly s s := ⟨s.port, s.choices, rfl, rfl⟩

theorem SendsOnly.trans {s t u : State} (h : SendsOnly s t) (g : SendsOnly t u) : SendsOnly s u := by
  obtain ⟨p, n, rfl, hp⟩ := h
  obtain ⟨q, m, rfl, hq⟩ := g
  exact ⟨q, m, rfl, hq.trans hp⟩

theorem SendsOnly.working {s t : State} (h : SendsOnly s t) : t.working = s.working := by
  obtain ⟨p, n, rfl, hp⟩ := h
  exact congrArg (fun b => s.condition.state == .active && !b) hp

theorem SendsOnly.cartridge {s t : State} (h : SendsOnly s t) : t.cartridge = s.cartridge := by
  obtain ⟨p, n, rfl, -⟩ := h
  rfl

theorem handOver_sendsOnly (who : Producer) (f : Frame) (s : State) : SendsOnly s (handOver who f s) := by
  rcases handOver_cases who f s with h | h | ⟨u, -, h⟩ <;> rw [h]
  · exact .refl s
  · exact ⟨s.port.await who f, s.choices, rfl, by unfold BusPort.await; split <;> rfl⟩
  · exact ⟨s.port.enqueue f u (s.placement.entryMark f), s.choices, rfl, rfl⟩

theorem sendRecall_sendsOnly (c : FrameClass) (r : LineRef) (k : CondCode) (s : State) :
    SendsOnly s (sendRecall c r k s) := by
  unfold sendRecall
  split
  · exact .refl s
  · exact handOver_sendsOnly ..

theorem raiseFault_sendsOnly (c : Cond) (s : State) : SendsOnly s (raiseFault c s) := by
  unfold raiseFault
  split
  · exact handOver_sendsOnly ..
  · refine SendsOnly.trans ?_ (handOver_sendsOnly ..)
    split
    · exact sendRecall_sendsOnly ..
    · exact .refl s

theorem advanceChoices_sendsOnly (r : Option LineRef) (s : State) : SendsOnly s (advanceChoices r s) := by
  unfold advanceChoices
  split
  · exact ⟨s.port, _, rfl, rfl⟩
  · exact .refl s

/-- R163, R172: a fault sends its frames, or begins a withdrawal in the kill period. -/
theorem raise_fault {c : Cond} {s : State} (hw : s.working = true) (hc : c.code.cls = .fault) :
    (∃ d cause, raise c s = withdraw d cause s) ∨ SendsOnly s (raise c s) := by
  unfold raise
  rw [if_pos hw, hc, if_neg (by decide)]
  split
  · exact .inl ⟨_, _, rfl⟩
  · exact .inr ((raiseFault_sendsOnly c s).trans (advanceChoices_sendsOnly ..))

/-- A withdraw condition that follows a fault finds a withdrawal begun or begins it. -/
theorem raise_withdraw_after_fault {c d : Cond} {s : State} (hw : s.working = true) (hc : c.code.cls = .fault)
    (hd : d.code.cls = .withdraw) :
    ∃ e cause u, raise d (raise c s) = withdraw e cause u ∧ u.cartridge = s.cartridge := by
  rcases raise_fault hw hc with ⟨e, cause, h⟩ | h
  · exact ⟨e, cause, s, by rw [h, raise_idle (withdraw_not_working ..)], rfl⟩
  · exact ⟨d, 0, raise c s, raise_withdraw (h.working.trans hw) hd, h.cartridge⟩

/-- R105, R152: only a PLACE frame is held back. -/
theorem entryMark_of_not_place {u : PlacementUnit} {f : Frame} (h : f.cls ≠ .place) : u.entryMark f = false := by
  simp [PlacementUnit.entryMark, h]

/-- R158, R160: a NOTICE that the port has room for enters the queue, not held back. -/
theorem sendNotice_enters {n : Notice} {s : State} (h : s.hasRoom .notice .notice false = true) :
    sendNotice n s = s.withPort (s.port.enqueue (s.port.frame .notice n.encode) false false) := by
  simp only [State.hasRoom, Bool.and_eq_true, Bool.not_eq_true', beq_iff_eq] at h
  obtain ⟨⟨haccepts, hstalled⟩, hslot⟩ := h
  rw [sendNotice, handOver_enters haccepts hstalled (by rw [BusPort.frame_cls]; exact hslot),
    entryMark_of_not_place (by rw [BusPort.frame_cls]; decide)]

/-- R52, R163: CARTRIDGE ADDRESS against a line of generation 0, outside the kill period, sends its NOTICE alone. -/
theorem raise_cartridgeAddress {item key : CopyIndex} {n : LineNumber} {i : CopyIndex} {s : State} (hw : s.working = true)
    (hk : s.condition.killPeriod = none) (hl : lineConcerned s key = some ⟨n, 0, some i⟩) :
    raise ⟨.cartridgeAddress, item, key, none, none, some key⟩ s = sendNotice ⟨.cartridgeAddress, n, item, key, none, 0⟩ s := by
  simp [raise, hw, CondCode.cls, hk, raiseFault, Cond.ref, hl, advanceChoices]

/-! ### The fall of cartridge-present (R54) -/

/-- R54: every operation is abandoned and every request removed, the pins, the port and the station state left as they are. -/
theorem abandonCartridgeWork_parts (s : State) :
    (abandonCartridgeWork s).shaper.op = none ∧ (abandonCartridgeWork s).shaper.boxOp = none ∧
      (abandonCartridgeWork s).cartridge.waiting = [] ∧ (abandonCartridgeWork s).pins = s.pins ∧
      (abandonCartridgeWork s).port = s.port ∧ (abandonCartridgeWork s).condition = s.condition := by
  have hshaping : (abandonShaping s).pins = s.pins ∧ (abandonShaping s).port = s.port ∧
      (abandonShaping s).condition = s.condition := by
    unfold abandonShaping
    split <;> exact ⟨rfl, rfl, rfl⟩
  obtain ⟨hpins, hport, hcondition⟩ := hshaping
  exact ⟨(abandonBox_op _).trans (abandonShaping_op s), abandonBox_boxOp _, rfl, hpins, hport, hcondition⟩

theorem pins_of_calm {s t : State} (h : t.calm = s.calm) : t.pins = s.pins := congrArg Fixed.pins (fixed_of_calm h)

theorem removeCartridge_pins (s : State) : (removeCartridge s).pins = s.pins := by
  unfold removeCartridge
  split
  · rfl
  · exact pins_of_calm (enterWithdrawn_calm s)
  · exact pins_of_calm (raise_calm ..)
  all_goals rfl

/-- Removing the cartridge starts no operation and makes no read wait. -/
theorem removeCartridge_idle {s : State} (hop : s.shaper.op = none) (hbox : s.shaper.boxOp = none)
    (hwait : s.cartridge.waiting = []) :
    (removeCartridge s).shaper.op = none ∧ (removeCartridge s).shaper.boxOp = none ∧
      (removeCartridge s).cartridge.waiting = [] := by
  unfold removeCartridge
  cases s.condition.state with
  | active =>
    dsimp only
    by_cases hw : s.working = true
    · rw [raise_withdraw hw rfl]
      obtain ⟨h1, h2⟩ := withdraw_shaper (Cond.at .cartridgeRemoved s.window.next none) 0 s
      exact ⟨h1, h2, (withdraw_cartridge ..).2 hwait⟩
    · rw [raise_idle (Bool.eq_false_iff.mpr hw)]
      exact ⟨hop, hbox, hwait⟩
  | reset | profiling | refused | listening | withdrawn => exact ⟨hop, hbox, hwait⟩

/-- R54, R112: at a working station the removal begins a withdrawal. -/
theorem removeCartridge_working {s : State} (hw : s.working = true) :
    removeCartridge s = withdraw (Cond.at .cartridgeRemoved s.window.next none) 0 s := by
  have hactive : s.condition.state = .active := by
    simp only [State.working, Bool.and_eq_true, beq_iff_eq] at hw
    exact hw.1
  simp only [removeCartridge, hactive]
  exact raise_withdraw hw rfl

/-- R54: with the pin high the fall lowers it; in RESET it does no more. -/
theorem exec_cartridgePresentFall {s : State} (h : s.pins.cartridgePresent = true) :
    exec .cartridgePresentFall s = .next
      (if s.condition.state = .reset then s.withPins ⟨s.pins.resetLine, false⟩
        else removeCartridge (abandonCartridgeWork (s.withPins ⟨s.pins.resetLine, false⟩))) :=
  congrArg Host.Outcome.next (if_pos h)

/-- R54: the fall outside RESET, once the pin is low. -/
theorem cartridgeRemoval (s : State) :
    let t := removeCartridge (abandonCartridgeWork s)
    t.pins = s.pins ∧ (t.shaper.op = none ∧ t.shaper.boxOp = none ∧ t.cartridge.waiting = []) ∧
      (s.condition.state = .profiling → t.condition.state = .refused) ∧
      (s.condition.state = .listening → t.condition.state = .withdrawn ∧ t.port.tx = []) ∧
      (s.working = true → t.condition.state = .active ∧ t.port.withdrawalPending = true ∧ t.readyLamp = false) ∧
      (s.condition.state = .withdrawn ∨ s.condition.state = .refused → t.condition.state = s.condition.state) := by
  obtain ⟨hop, hbox, hwait, hpins, hport, hcondition⟩ := abandonCartridgeWork_parts s
  have hstate : (abandonCartridgeWork s).condition.state = s.condition.state := congrArg ConditionUnit.state hcondition
  refine ⟨(removeCartridge_pins _).trans hpins, removeCartridge_idle hop hbox hwait, fun h => ?_, fun h => ?_, fun h => ?_,
    fun h => ?_⟩
  · simp only [removeCartridge, hstate, h]
    rfl
  · simp only [removeCartridge, hstate, h]
    exact ⟨rfl, rfl⟩
  · have hw : (abandonCartridgeWork s).working = true := by rw [State.working, hport, hcondition]; exact h
    rw [removeCartridge_working hw]
    refine ⟨?_, (withdraw_port ..).2, withdraw_not_working ..⟩
    simp only [State.working, Bool.and_eq_true, beq_iff_eq] at h
    rw [withdraw_condition, hcondition]
    exact h.1
  · have hstays : removeCartridge (abandonCartridgeWork s) = abandonCartridgeWork s := by
      rcases h with h | h <;> simp only [removeCartridge, hstate, h]
    rw [hstays, hstate]

/-- Settles O6: outside RESET the work on the cartridge is abandoned first, and the station state says what follows. -/
theorem cartridgePresent : Obligations.CartridgePresent := by
  unfold Obligations.CartridgePresent
  refine fun s => ⟨rfl, fun hpresent => ?_⟩
  rw [exec_cartridgePresentFall hpresent]
  refine ⟨_, rfl, ?_⟩
  by_cases hreset : s.condition.state = .reset
  · rw [if_pos hreset]
    simp [hreset, State.working]
  · rw [if_neg hreset]
    obtain ⟨hpins, hidle, hfate⟩ := cartridgeRemoval (s.withPins ⟨s.pins.resetLine, false⟩)
    exact ⟨congrArg Pins.cartridgePresent hpins, fun h => absurd h hreset, fun _ => hidle, hfate⟩

end Sys2Proof.Machine
end

-- ==== proofs: shaping and building on cartridge words ====
section
/-! The operations and the words they read: a word handed to its requester, the next one asked for, and what an event lets go
on where nothing else waits (R40, R52, R57, R58, R71). -/

namespace Sys2Proof.Machine

/-! ### What an event sets going where nothing waits -/

/-- What a state lacks in which nothing but the operations has anything to go on with. -/
theorem nothingWaits_parts {s : State} (h : s.nothingWaits = true) :
    s.shaper.remainder = none ∧ s.port.waiting = [] ∧ s.cartridge.waiting = [] ∧ s.placement.nextLine? = none ∧
      (s.splitter.cutting = false ∨
        (s.window.holds s.splitter.cutPoint = false ∧ s.window.behind s.splitter.cutPoint = false)) := by
  simp only [State.nothingWaits, Bool.and_eq_true, Option.isNone_iff_eq_none, List.isEmpty_iff, Bool.or_eq_true,
    Bool.not_eq_true'] at h
  obtain ⟨⟨⟨⟨h1, h2⟩, h3⟩, h4⟩, h5⟩ := h
  exact ⟨h1, h2, h3, h4, h5⟩

theorem quiet_nothingWaits {s : State} (h : s.quiet = true) : s.nothingWaits = true ∧ s.noStoreWait = true := by
  simp only [State.quiet, Bool.and_eq_true] at h
  obtain ⟨⟨⟨hnothing, -⟩, -⟩, -⟩ := h
  exact hnothing

theorem grantStore_noStoreWait {s : State} (h : s.noStoreWait = true) : grantStore s = s := by
  simp only [State.noStoreWait, Bool.and_eq_true, List.all_eq_true, bne_iff_ne] at h
  obtain ⟨hrecords, hboxes⟩ := h
  exact grantStore_idle hrecords hboxes

/-- Where no box build waits for store room, the shaping operation's reservation is the one that can be granted. -/
theorem grantStore_noBox {s : State} (hg : grantShaping s = s) (hb : ∀ b ∈ s.shaper.boxes, b.state ≠ .storeWait) :
    grantStore s = s := by
  have hany : s.shaper.boxes.any (fun b => b.state == .storeWait) = false := by simpa using hb
  have hfind : s.shaper.boxes.find? (fun b => b.state == .storeWait) = none := by simpa using hb
  simp [grantStore, hany, hg, grantBox, hfind]

/-- Where nothing waits but what the cartridge port holds, no reservation is granted and no measurement begins, an event lets
the next read go and nothing else. -/
theorem finish_startsRead {s : State} {c : CartridgePort} (hw : s.working = true) (hn : s.nothingWaits = true)
    (hg : grantStore (s.withCartridge c) = s.withCartridge c) (hm : startMeasure (s.withCartridge c) = s.withCartridge c) :
    finish (s.withCartridge c) = s.withCartridge c.startNext := by
  obtain ⟨hremainder, hwaiting, -, hline, hcut⟩ := nothingWaits_parts hn
  have hsettle : settle (s.withCartridge c) = s.withCartridge c.startNext := by
    unfold settle
    rw [settleSlots_none (s := s.withCartridge c) hwaiting, placeRemainder_none (s := s.withCartridge c) hremainder,
      resumeCutting_done (s := s.withCartridge c) hcut, hg, hm]
    rfl
  unfold finish
  rw [hsettle, pump_none (s := s.withCartridge c.startNext) hline]
  exact if_pos hw

/-- A station that does not work goes on with its next read alone. -/
theorem finish_idle {s : State} (hw : s.working = false) : finish s = startNextRead s := if_neg (by simp [hw])

/-! ### Requests (R40) -/

theorem startNext_empty {p : CartridgePort} (h : p.waiting = []) : p.startNext = p := by
  unfold CartridgePort.startNext
  rw [h]
  split <;> simp_all

theorem startNext_usable (p : CartridgePort) : p.startNext.usable = p.usable := by
  unfold CartridgePort.startNext
  split <;> rfl

/-- R40: at an idle port where none waits, a request starts at once. -/
theorem startNext_request {p : CartridgePort} {who : Requester} {a : Nat} (ho : p.outstanding = none) (hw : p.waiting = []) :
    (p.request who a).startNext = { p with outstanding := some ⟨who, a, false⟩ } := by
  simp [CartridgePort.request, CartridgePort.startNext, ho, hw]

/-- R40: nothing is abandoned at a port where no read is outstanding or waits. -/
theorem abandon_idle {p : CartridgePort} {who : Requester} (ho : p.outstanding = none) (hw : p.waiting = []) :
    p.abandon who = p := by
  obtain ⟨_, _, _, _, _, _, _⟩ := p
  simp_all [CartridgePort.abandon]

/-! ### How far an operation has come -/

section
variable {s : State} {op : Operation} {stop : Except ReadStop ShapeResult} {st : ReadState}

theorem shapingProgress_none (h : s.shaper.op = none) : s.shapingProgress = none := by simp [State.shapingProgress, h]

theorem boxProgress_none (h : s.shaper.boxOp = none) : s.boxProgress = none := by simp [State.boxProgress, h]

theorem shapingProgress_some {r : SegRecord} (hop : s.shaper.op = some op) (hr : s.shaper.record? op.start = some r)
    (hread : runReader (shapeSegment s.readEnv (s.shapeInput r)) op.words = (stop, st)) :
    s.shapingProgress = some (op, r, stop, st) := by
  simp [State.shapingProgress, hop, hr, hread]

theorem boxProgress_some {b : BoxRecord} (hop : s.shaper.boxOp = some op) (hb : s.shaper.building? op.start = some b)
    (hread : runReader (shapeBox s.readEnv b.start (s.window.chars b.start b.itemCount)) op.words = (stop, st)) :
    s.boxProgress = some (op, b, stop, st) := by
  simp [State.boxProgress, hop, hb, hread]

/-- R80: an operation that has not come to its last step is not measured. -/
theorem startMeasure_unshaped {r : SegRecord} (hp : s.shapingProgress = some (op, r, stop, st)) (hst : st.shaped = none)
    (hbox : s.shaper.boxOp = none) : startMeasure s = s := by
  simp [startMeasure, hp, hst, boxProgress_none hbox]

theorem startMeasure_unbuilt {b : BoxRecord} (hp : s.boxProgress = some (op, b, stop, st)) (hst : st.shaped = none)
    (hop : s.shaper.op = none) : startMeasure s = s := by
  simp [startMeasure, hp, hst, shapingProgress_none hop]

/-- R40: a shaping operation that needs a further word asks for it, and where nothing else waits that is all that follows. -/
theorem finish_resumeShaping {r : SegRecord} {a : Nat} (n : Nat) (hw : s.working = true) (hn : s.nothingWaits = true)
    (hs : s.noStoreWait = true) (hbox : s.shaper.boxOp = none) (hop : s.shaper.op = some op)
    (hr : s.shaper.record? op.start = some r)
    (hread : runReader (shapeSegment s.readEnv (s.shapeInput r)) op.words = (.error (.need a), st)) (hst : st.shaped = none) :
    finish (resumeShaping (n + 1) s) = s.withCartridge (s.cartridge.request .shaper a).startNext := by
  have hp := shapingProgress_some hop hr hread
  have hasks : resumeShaping (n + 1) s = s.withCartridge (s.cartridge.request .shaper a) := by rw [resumeShaping, hp]
  rw [hasks]
  exact finish_startsRead hw hn (grantStore_noStoreWait hs) (startMeasure_unshaped hp hst hbox)

/-- R40, R71: a box build that needs a further word asks for it. -/
theorem finish_resumeBox {b : BoxRecord} {a : Nat} (hw : s.working = true) (hn : s.nothingWaits = true)
    (hs : s.noStoreWait = true) (hop : s.shaper.op = none) (hbox : s.shaper.boxOp = some op)
    (hb : s.shaper.building? op.start = some b)
    (hread : runReader (shapeBox s.readEnv b.start (s.window.chars b.start b.itemCount)) op.words = (.error (.need a), st))
    (hst : st.shaped = none) :
    finish (resumeBox s) = s.withCartridge (s.cartridge.request .box a).startNext := by
  have hp := boxProgress_some hbox hb hread
  have hasks : resumeBox s = s.withCartridge (s.cartridge.request .box a) := by rw [resumeBox, hp]
  rw [hasks]
  exact finish_startsRead hw hn (grantStore_noStoreWait hs) (startMeasure_unbuilt hp hst hop)

/-! ### Violations (R52) -/

/-- R52: an operation with no read in the port starts again from its first character. -/
theorem restartShaping_some (hop : s.shaper.op = some op) (ho : s.cartridge.outstanding = none)
    (hwait : s.cartridge.waiting = []) :
    restartShaping s =
      (s.withMeasure (s.measure.drop op.start)).withShaper { s.shaper with op := some { op with words := [] } } := by
  unfold restartShaping
  rw [hop]
  dsimp only
  rw [abandon_idle ho hwait]
  rfl

/-- R52: with no box build in flight, a violation marks the slot, raises CARTRIDGE ADDRESS and restarts the operation. -/
theorem resumeShaping_violation {r : SegRecord} {slot : Nat} {item : CopyIndex} (n : Nat)
    (hp : s.shapingProgress = some (op, r, .error (.violation slot item), st)) (hbox : s.shaper.boxOp = none) :
    resumeShaping (n + 1) s = resumeShaping n (restartShaping
      (raise ⟨.cartridgeAddress, item, op.start, none, none, some op.start⟩
        (s.withCartridge (s.cartridge.markUnusable slot)))) := by
  have hused : boxHasUsed s slot = none := by simp [boxHasUsed, boxProgress_none hbox]
  rw [resumeShaping, hp]
  simp only [shapingViolation, hused]

/-- R52, R53: with no shaping operation in flight, a violation in the box build marks the slot and begins a withdrawal. -/
theorem resumeBox_violation {b : BoxRecord} {slot : Nat} {item : CopyIndex} (hw : s.working = true)
    (hp : s.boxProgress = some (op, b, .error (.violation slot item), st)) (hop : s.shaper.op = none) :
    ∃ c cause u, resumeBox s = withdraw c cause u ∧ u.cartridge = s.cartridge.markUnusable slot := by
  have hagain : shapingHasUsed s slot = false := by simp [shapingHasUsed, shapingProgress_none hop]
  rw [resumeBox, hp]
  simp only [hagain, Bool.false_eq_true, if_false]
  exact raise_withdraw_after_fault (s := s.withCartridge (s.cartridge.markUnusable slot)) hw rfl rfl

end

/-! ### Marking a record (R57, R58) -/

section
variable {h : Shaper} {s : State} {i : CopyIndex} {f : SegRecord → SegRecord} {r : SegRecord}

theorem record?_mapRecord (hf : ∀ x, (f x).start = x.start) (hr : h.record? i = some r) :
    (h.mapRecord i f).record? i = some (f r) := by
  have hstart : r.start = i := by simpa using List.find?_some hr
  have hsame : ∀ x ∈ h.records, ((fun y : SegRecord => y.start == i) ∘ fun y => if y.start == i then f y else y) x =
      (x.start == i) := by
    intro x _
    by_cases hx : x.start = i <;> simp [hx, hf]
  rw [Shaper.record?, Shaper.mapRecord, List.find?_map, List.find?_congr hsame, show h.records.find? _ = some r from hr]
  simp [hstart]

/-- The record that waits for store room, where no other does. -/
theorem find_storeWait_mapRecord (hs : ∀ x ∈ h.records, x.state ≠ .storeWait) (hf : ∀ x, (f x).state = .storeWait)
    (hr : h.record? i = some r) :
    (h.mapRecord i f).records.find? (fun x => x.state == .storeWait) = some (f r) := by
  have hstart : r.start = i := by simpa using List.find?_some hr
  have hsame : ∀ x ∈ h.records, ((fun y : SegRecord => y.state == .storeWait) ∘ fun y => if y.start == i then f y else y) x =
      (x.start == i) := by
    intro x hx
    by_cases hi : x.start = i <;> simp [hi, hf, hs x hx]
  rw [Shaper.mapRecord, List.find?_map, List.find?_congr hsame, show h.records.find? _ = some r from hr]
  simp [hstart]

/-- A record marked other than STORE WAIT does not wait for store room. -/
theorem noStoreWait_mapRecord {o : Option Operation} (hs : s.noStoreWait = true) (hf : ∀ x, (f x).state ≠ .storeWait) :
    (s.withShaper { s.shaper.mapRecord i f with op := o }).noStoreWait = true := by
  simp only [State.noStoreWait, Bool.and_eq_true, List.all_eq_true, bne_iff_ne] at hs ⊢
  refine ⟨fun x hx => ?_, hs.2⟩
  obtain ⟨y, hy, rfl⟩ := List.mem_map.mp hx
  split
  · exact hf y
  · exact hs.1 y hy

/-- Marking a record leaves the store's free count as it is. -/
theorem mapRecord_free (hf : ∀ x, (f x).glyphs = x.glyphs) : (h.mapRecord i f).free = h.free := by
  have hglyphs : (h.mapRecord i f).records.map (·.glyphs) = h.records.map (·.glyphs) := by
    simp only [Shaper.mapRecord, List.map_map]
    refine List.map_congr_left fun x _ => ?_
    simp only [Function.comp]
    split
    · exact hf x
    · rfl
  simp only [Shaper.free, Shaper.held, hglyphs]
  rfl

/-- R59: marking a record leaves what cannot be freed as it is. -/
theorem mapRecord_unfreeable (hstart : ∀ x, (f x).start = x.start) (hglyphs : ∀ x, (f x).glyphs = x.glyphs) :
    (s.withShaper (s.shaper.mapRecord i f)).unfreeable = s.unfreeable := by
  have hmark (x : SegRecord) : (if x.start == i then f x else x).start = x.start ∧
      (if x.start == i then f x else x).glyphs = x.glyphs := by
    split
    · exact ⟨hstart x, hglyphs x⟩
    · exact ⟨rfl, rfl⟩
  simp only [State.unfreeable, State.withShaper_shaper, State.withShaper_tally, Shaper.mapRecord, List.filter_map,
    List.map_map, Function.comp_def, hmark]

end

/-! ### Shaping starts (R57, R58) -/

/-- R58: the state with record `r` in STORE WAIT. -/
def State.storeWaiting (s : State) (r : SegRecord) : State :=
  s.withShaper (s.shaper.mapRecord r.start (fun x => { x with state := .storeWait }))

section
variable {s : State} {r : SegRecord}

theorem storeWaiting_unfreeable : (s.storeWaiting r).unfreeable = s.unfreeable :=
  mapRecord_unfreeable (fun _ => rfl) (fun _ => rfl)

theorem storeWaiting_free : (s.storeWaiting r).shaper.free = s.shaper.free := mapRecord_free fun _ => rfl

/-- R57: the shaper takes the first WAITING record. -/
theorem exec_shapingStart (hc : s.canStartShaping = true)
    (hr : s.shaper.records.find? (fun x => x.state == .waiting) = some r) :
    exec .shapingStart s = .next (finish (if r.charCount ≤ s.shaper.free then beginShaping r s
      else checkStoreFull r.start r.charCount (s.storeWaiting r))) := by
  have hstart : startShaping s = if r.charCount ≤ s.shaper.free then beginShaping r s
      else checkStoreFull r.start r.charCount (s.storeWaiting r) := by
    rw [startShaping, if_pos hc, hr]
    rfl
  rw [← hstart]
  exact congrArg Host.Outcome.next (if_pos hc)

/-- R40, R57: a granted record enters SHAPING, and where nothing else waits only its first word is asked for. -/
theorem finish_beginShaping {a : Nat} {st : ReadState} (hw : s.working = true) (hn : s.nothingWaits = true)
    (hs : s.noStoreWait = true) (hbox : s.shaper.boxOp = none) (hr : s.shaper.record? r.start = some r)
    (hread : runReader (shapeSegment s.readEnv (s.shapeInput r)) [] = (.error (.need a), st)) (hst : st.shaped = none) :
    finish (beginShaping r s) = s.shapingBegun r a := by
  have hr' : (s.shaper.mapRecord r.start (fun x => { x with state := .shaping })).record? r.start =
      some { r with state := .shaping } := record?_mapRecord (fun _ => rfl) hr
  exact finish_resumeShaping (op := ⟨r.start, r.charCount, []⟩) 17 hw hn (noStoreWait_mapRecord hs (by simp)) hbox rfl hr'
    hread hst

/-- R58: a record put in STORE WAIT stays there while the free count does not cover it, and nothing else follows. -/
theorem finish_storeWait (hw : s.working = true) (hq : s.quiet = true) (hr : s.shaper.record? r.start = some r)
    (hroom : s.shaper.free < r.charCount) :
    finish (s.storeWaiting r) = s.storeWaiting r := by
  obtain ⟨hrecords, hboxes, -, hop, hbox, -, hreads, -⟩ := quiet_parts hq
  have hwaits : (s.storeWaiting r).shaper.records.find? (fun x => x.state == .storeWait) =
      some { r with state := .storeWait } := find_storeWait_mapRecord hrecords (fun _ => rfl) hr
  have hshaping : grantShaping (s.storeWaiting r) = s.storeWaiting r := by
    simp [grantShaping, hwaits, storeWaiting_free, hroom]
  have hgrant : grantStore (s.storeWaiting r) = s.storeWaiting r := grantStore_noBox hshaping hboxes
  have hfinish : finish (s.storeWaiting r) = (s.storeWaiting r).withCartridge s.cartridge.startNext :=
    finish_startsRead (s := s.storeWaiting r) (c := s.cartridge) hw (quiet_nothingWaits hq).1 hgrant
      (startMeasure_idle hop hbox)
  rw [startNext_empty hreads] at hfinish
  exact hfinish

end

/-- Settles O16: a record the store has room for enters SHAPING and asks for its first word; another waits for room. -/
theorem shapingStarts : Obligations.ShapingStarts := by
  unfold Obligations.ShapingStarts
  intro s r hc hq hwaiting hr
  have hw : s.working = true := by
    simp only [State.canStartShaping, Bool.and_eq_true] at hc
    exact hc.1.1.1
  rw [exec_shapingStart hc hwaiting]
  refine ⟨fun a st hroom hread hst => ?_, fun hroom hfull => ?_⟩
  · obtain ⟨-, -, -, -, hbox, -⟩ := quiet_parts hq
    obtain ⟨hn, hs⟩ := quiet_nothingWaits hq
    rw [if_pos hroom, finish_beginShaping hw hn hs hbox hr hread hst]
  · have hfits : ¬ storeSize < (s.storeWaiting r).unfreeable + r.charCount := by
      rw [storeWaiting_unfreeable]
      exact Nat.not_lt.mpr hfull
    rw [if_neg (Nat.not_le.mpr hroom), checkStoreFull, if_neg hfits, finish_storeWait hw hq hr hroom]
    rfl

end Sys2Proof.Machine
end

-- ==== proofs: words read from the cartridge ====
section
/-! The word of the read outstanding goes to the profile reader, the shaping operation or the box build, or is discarded (R40,
R52, R177 to R179). -/

namespace Sys2Proof.Machine

/-- R178: the checks a profile can fail. -/
theorem Profile.passes_eq_false_iff (p : Profile) :
    p.passes = false ↔ p.version ≠ 3 ∨ p.size = 0 ∨ 8 < p.count ∨ (p.count = 0 ∧ p.fallback = false) ∨
      (∃ c ∈ p.claims, c.2.1 < c.1 ∨ 1048575 < c.1 ∨ 1048575 < c.2.1 ∨ 3 < c.2.2.1) ∨ 1023 < p.natural ∨
      1023 < p.minimum ∨ 1023 < p.maximum ∨ p.natural < p.minimum ∨ p.maximum < p.natural ∨ p.maximum = 0 := by
  have hclaim (c : Nat × Nat × Nat × Nat) :
      claimPasses c = false ↔ c.2.1 < c.1 ∨ 1048575 < c.1 ∨ 1048575 < c.2.1 ∨ 3 < c.2.2.1 := by
    have hmax : maxCode = 1048575 := rfl
    simp only [claimPasses, Bool.and_eq_false_iff, decide_eq_false_iff_not]
    omega
  have hclaims : p.claims.all claimPasses = false ↔
      ∃ c ∈ p.claims, c.2.1 < c.1 ∨ 1048575 < c.1 ∨ 1048575 < c.2.1 ∨ 3 < c.2.2.1 := by
    simp only [List.all_eq_false, Bool.not_eq_true, hclaim]
  simp only [Profile.passes, Bool.and_eq_false_iff, hclaims, or_assoc, beq_eq_false_iff_ne, bne_eq_false_iff_eq,
    Bool.or_eq_false_iff, decide_eq_false_iff_not, Nat.not_le]

/-- The state once the read outstanding has ended. -/
def State.readEnded (s : State) : State := s.withCartridge { s.cartridge with outstanding := none }

section
variable {s : State} {w : CartWord} {a : Nat}

/-- R40: a word goes to its requester, and then what it sets going follows. -/
theorem exec_cartridgeReadComplete {o : OutstandingRead} (h : s.cartridge.outstanding = some o) :
    exec (.cartridgeReadComplete w) s = .next (finish (receiveWord o w s)) := by
  simp [exec, execCartridgeReadComplete, h]

/-- R40: the word of an abandoned read is discarded. -/
theorem abandonedRead_discarded {who : Requester} (hq : s.quiet = true) (h : s.cartridge.outstanding = some ⟨who, a, true⟩) :
    exec (.cartridgeReadComplete w) s = .next s.readEnded := by
  rw [exec_cartridgeReadComplete h]
  exact congrArg Host.Outcome.next (finish_quiet (s := s.readEnded) hq)

/-! ### The profile (R177 to R179) -/

/-- R177: in PROFILING the 96th word ends the profile read. -/
theorem receiveProfileWord_last {ws : List CartWord} (hstate : s.condition.state = .profiling)
    (hws : s.cartridge.profileWords = some ws) (hlen : ws.length = 95) :
    receiveProfileWord w s = profileRead (ws ++ [w]) s := by
  simp [receiveProfileWord, hws, hstate, hlen, profileLength]

/-- R177: an earlier word is kept and the next one requested. -/
theorem receiveProfileWord_more {ws : List CartWord} (hstate : s.condition.state = .profiling)
    (hws : s.cartridge.profileWords = some ws) (hlen : ws.length < 95) :
    receiveProfileWord w s =
      s.withCartridge ({ s.cartridge with profileWords := some (ws ++ [w]) }.request .profile (ws.length + 1)) := by
  have hne : ws.length + 1 ≠ 96 := by omega
  simp [receiveProfileWord, hws, hstate, hne, profileLength]

theorem profileRead_cartridge {ws : List CartWord} :
    (profileRead ws s).cartridge.outstanding = s.cartridge.outstanding ∧
      (profileRead ws s).cartridge.waiting = s.cartridge.waiting := by
  unfold profileRead
  split <;> exact ⟨rfl, rfl⟩

theorem profileRead_not_working {ws : List CartWord} : (profileRead ws s).working = false := by
  unfold profileRead
  split <;> rfl

/-- Nothing follows the end of the profile read. -/
theorem finish_profileRead {ws : List CartWord} (hwait : s.cartridge.waiting = []) :
    finish (profileRead ws s) = profileRead ws s := by
  rw [finish_idle profileRead_not_working, startNextRead_none (profileRead_cartridge.2.trans hwait)]

/-- R178, R179: a profile that passes is handed to the blocks, and the station listens. -/
theorem profileRead_passes {ws : List CartWord} (h : (Profile.ofWords ws).passes = true) :
    profileRead ws s = (distribute (Profile.ofWords ws) ws s).entering .listening := if_pos h

/-- R178: a profile that fails a check is refused. -/
theorem profileRead_fails {ws : List CartWord} (h : (Profile.ofWords ws).passes = false) :
    profileRead ws s = (s.withCartridge { s.cartridge with profileWords := none }).entering .refused :=
  if_neg (by simp [h])

/-- R177: the last word of the profile read ends it. -/
theorem exec_lastProfileWord {ws : List CartWord} (hstate : s.condition.state = .profiling)
    (ho : s.cartridge.outstanding = some ⟨.profile, a, false⟩) (hws : s.cartridge.profileWords = some ws)
    (hwait : s.cartridge.waiting = []) (hlen : ws.length = 95) :
    exec (.cartridgeReadComplete w) s = .next (profileRead (ws ++ [w]) s.readEnded) := by
  have hword : receiveWord ⟨.profile, a, false⟩ w s = profileRead (ws ++ [w]) s.readEnded :=
    receiveProfileWord_last (s := s.readEnded) hstate hws hlen
  rw [exec_cartridgeReadComplete ho, hword, finish_profileRead (s := s.readEnded) hwait]

/-- R40, R177: an earlier word is kept, and the read of the next one starts. -/
theorem exec_earlierProfileWord {ws : List CartWord} (hstate : s.condition.state = .profiling)
    (ho : s.cartridge.outstanding = some ⟨.profile, a, false⟩) (hws : s.cartridge.profileWords = some ws)
    (hwait : s.cartridge.waiting = []) (hlen : ws.length < 95) :
    exec (.cartridgeReadComplete w) s = .next (s.withCartridge { s.cartridge with
      profileWords := some (ws ++ [w]), outstanding := some ⟨.profile, ws.length + 1, false⟩ }) := by
  let p : CartridgePort := { s.cartridge with profileWords := some (ws ++ [w]), outstanding := none }
  let u := s.withCartridge (p.request .profile (ws.length + 1))
  have hword : receiveWord ⟨.profile, a, false⟩ w s = u := receiveProfileWord_more (s := s.readEnded) hstate hws hlen
  have hidle : u.working = false := by simp [u, State.working, hstate]
  have hnext : startNextRead u = s.withCartridge { p with outstanding := some ⟨.profile, ws.length + 1, false⟩ } :=
    congrArg s.withCartridge (startNext_request (p := p) rfl hwait)
  rw [exec_cartridgeReadComplete ho, hword, finish_idle hidle, hnext]

/-! ### The shaping operation (R40, R52) -/

/-- R40: the state in which the shaping operation `op` holds the word that has just arrived. -/
def State.shaperGiven (s : State) (op : Operation) (w : CartWord) : State :=
  s.readEnded.withShaper { s.shaper with op := some { op with words := op.words ++ [w] } }

theorem receiveWord_shaper {op : Operation} (hop : s.shaper.op = some op) :
    receiveWord ⟨.shaper, a, false⟩ w s = resumeShaping restartFuel (s.shaperGiven op w) := by
  simp only [receiveWord, receiveShaperWord, State.withCartridge_shaper, hop, Option.map_some, Bool.false_eq_true, if_false]
  rfl

/-- R52, R163: the state once a violation has marked its slot, its CARTRIDGE ADDRESS NOTICE stands in the queue, and the operation
`op` has no words. -/
def State.shaperRestarted (s : State) (op : Operation) (slot : Nat) (notice : Notice) : State :=
  (((s.readEnded.withCartridge (s.readEnded.cartridge.markUnusable slot)).withPort
    (s.port.enqueue (s.port.frame .notice notice.encode) false false)).withMeasure (s.measure.drop op.start)).withShaper
      { s.shaper with op := some { op with words := [] } }

/-- R52: a violation against a line of generation 0 restarts the operation, which asks for its first word again. -/
theorem resumeShaping_restarts {op : Operation} {r : SegRecord} {st : ReadState} {slot : Nat} {item i : CopyIndex}
    {n : LineNumber} (hw : s.working = true) (hwait : s.cartridge.waiting = []) (hbox : s.shaper.boxOp = none)
    (hr : s.shaper.record? op.start = some r)
    (hread : runReader (shapeSegment s.readEnv (s.shapeInput r)) (op.words ++ [w]) = (.error (.violation slot item), st))
    (hk : s.condition.killPeriod = none) (hl : lineConcerned s op.start = some ⟨n, 0, some i⟩)
    (hroom : s.hasRoom .notice .notice false = true) (fuel : Nat) :
    resumeShaping (fuel + 1) (s.shaperGiven op w) =
      resumeShaping fuel (s.shaperRestarted op slot ⟨.cartridgeAddress, n, item, op.start, none, 0⟩) := by
  have hp : (s.shaperGiven op w).shapingProgress =
      some ({ op with words := op.words ++ [w] }, r, .error (.violation slot item), st) :=
    shapingProgress_some (s := s.shaperGiven op w) rfl hr hread
  let u := (s.shaperGiven op w).withCartridge (s.readEnded.cartridge.markUnusable slot)
  have hraise : raise ⟨.cartridgeAddress, item, op.start, none, none, some op.start⟩ u =
      u.withPort (s.port.enqueue
        (s.port.frame .notice (Notice.encode ⟨.cartridgeAddress, n, item, op.start, none, 0⟩)) false false) := by
    rw [raise_cartridgeAddress (s := u) hw hk hl, sendNotice_enters (s := u) hroom]
    rfl
  refine (resumeShaping_violation fuel hp hbox).trans (congrArg (resumeShaping fuel) ?_)
  refine (congrArg restartShaping hraise).trans ?_
  exact restartShaping_some (op := { op with words := op.words ++ [w] }) rfl rfl hwait

/-- R40: where nothing else waits, a shaping operation that needs a further word has it asked for. -/
theorem exec_shaperWord {op : Operation} {r : SegRecord} {st : ReadState} {b : Nat} (hw : s.working = true)
    (hn : s.nothingWaits = true) (hs : s.noStoreWait = true) (hbox : s.shaper.boxOp = none)
    (ho : s.cartridge.outstanding = some ⟨.shaper, a, false⟩) (hop : s.shaper.op = some op)
    (hr : s.shaper.record? op.start = some r)
    (hread : runReader (shapeSegment s.readEnv (s.shapeInput r)) (op.words ++ [w]) = (.error (.need b), st))
    (hst : st.shaped = none) :
    exec (.cartridgeReadComplete w) s =
      .next ((s.withShaper { s.shaper with op := some { op with words := op.words ++ [w] } }).withCartridge
        { s.cartridge with outstanding := some ⟨.shaper, b, false⟩ }) := by
  obtain ⟨-, -, hwait, -⟩ := nothingWaits_parts hn
  have hfinish := finish_resumeShaping (s := s.shaperGiven op w) 17 hw hn hs hbox rfl hr hread hst
  rw [startNext_request (p := (s.shaperGiven op w).cartridge) rfl hwait] at hfinish
  rw [exec_cartridgeReadComplete ho, receiveWord_shaper hop]
  exact congrArg Host.Outcome.next hfinish

/-- R52: where nothing else waits, a violation in the shaping operation has its first word asked for again. -/
theorem exec_shaperViolation {op : Operation} {r : SegRecord} {st st' : ReadState} {b slot : Nat} {item i : CopyIndex}
    {n : LineNumber} (hw : s.working = true) (hn : s.nothingWaits = true) (hs : s.noStoreWait = true)
    (hbox : s.shaper.boxOp = none) (ho : s.cartridge.outstanding = some ⟨.shaper, a, false⟩) (hop : s.shaper.op = some op)
    (hr : s.shaper.record? op.start = some r)
    (hread : runReader (shapeSegment s.readEnv (s.shapeInput r)) (op.words ++ [w]) = (.error (.violation slot item), st))
    (hagain : runReader (shapeSegment { s.readEnv with usable := s.cartridge.usable.set slot false } (s.shapeInput r)) [] =
      (.error (.need b), st')) (hst : st'.shaped = none)
    (hk : s.condition.killPeriod = none) (hl : lineConcerned s op.start = some ⟨n, 0, some i⟩)
    (hroom : s.hasRoom .notice .notice false = true) :
    exec (.cartridgeReadComplete w) s =
      .next ((s.shaperRestarted op slot ⟨.cartridgeAddress, n, item, op.start, none, 0⟩).withCartridge
        { s.cartridge.markUnusable slot with outstanding := some ⟨.shaper, b, false⟩ }) := by
  obtain ⟨-, -, hwait, -⟩ := nothingWaits_parts hn
  let u := s.shaperRestarted op slot ⟨.cartridgeAddress, n, item, op.start, none, 0⟩
  have hfinish := finish_resumeShaping (s := u) 16 hw hn hs hbox rfl hr hagain hst
  rw [startNext_request (p := u.cartridge) rfl hwait] at hfinish
  rw [exec_cartridgeReadComplete ho, receiveWord_shaper hop, restartFuel,
    resumeShaping_restarts hw hwait hbox hr hread hk hl hroom]
  exact congrArg Host.Outcome.next hfinish

/-! ### The box build (R40, R52, R71) -/

/-- R40: the state in which the box build `op` holds the word that has just arrived. -/
def State.boxGiven (s : State) (op : Operation) (w : CartWord) : State :=
  s.readEnded.withShaper { s.shaper with boxOp := some { op with words := op.words ++ [w] } }

theorem receiveWord_box {op : Operation} (hop : s.shaper.boxOp = some op) :
    receiveWord ⟨.box, a, false⟩ w s = resumeBox (s.boxGiven op w) := by
  simp only [receiveWord, receiveBoxWord, State.withCartridge_shaper, hop, Option.map_some, Bool.false_eq_true, if_false]
  rfl

/-- R40, R71: where nothing else waits, a box build that needs a further word has it asked for. -/
theorem exec_boxWord {op : Operation} {b : BoxRecord} {st : ReadState} {c : Nat} (hw : s.working = true)
    (hn : s.nothingWaits = true) (hs : s.noStoreWait = true) (hshaping : s.shaper.op = none)
    (ho : s.cartridge.outstanding = some ⟨.box, a, false⟩) (hop : s.shaper.boxOp = some op)
    (hb : s.shaper.building? op.start = some b)
    (hread : runReader (shapeBox s.readEnv b.start (s.window.chars b.start b.itemCount)) (op.words ++ [w]) =
      (.error (.need c), st)) (hst : st.shaped = none) :
    exec (.cartridgeReadComplete w) s =
      .next ((s.withShaper { s.shaper with boxOp := some { op with words := op.words ++ [w] } }).withCartridge
        { s.cartridge with outstanding := some ⟨.box, c, false⟩ }) := by
  obtain ⟨-, -, hwait, -⟩ := nothingWaits_parts hn
  have hfinish := finish_resumeBox (s := s.boxGiven op w) hw hn hs hshaping rfl hb hread hst
  rw [startNext_request (p := (s.boxGiven op w).cartridge) rfl hwait] at hfinish
  rw [exec_cartridgeReadComplete ho, receiveWord_box hop]
  exact congrArg Host.Outcome.next hfinish

/-- R52, R53: a violation in the box build marks its slot and begins a withdrawal. -/
theorem exec_boxViolation {op : Operation} {b : BoxRecord} {st : ReadState} {slot : Nat} {item : CopyIndex}
    (hw : s.working = true) (hshaping : s.shaper.op = none) (ho : s.cartridge.outstanding = some ⟨.box, a, false⟩)
    (hop : s.shaper.boxOp = some op) (hb : s.shaper.building? op.start = some b)
    (hread : runReader (shapeBox s.readEnv b.start (s.window.chars b.start b.itemCount)) (op.words ++ [w]) =
      (.error (.violation slot item), st)) :
    ∃ t, exec (.cartridgeReadComplete w) s = .next t ∧ t.cartridge.usable = s.cartridge.usable.set slot false ∧
      t.port.withdrawalPending = true ∧ t.shaper.boxOp = none := by
  have hp : (s.boxGiven op w).boxProgress =
      some ({ op with words := op.words ++ [w] }, b, .error (.violation slot item), st) :=
    boxProgress_some (s := s.boxGiven op w) rfl hb hread
  obtain ⟨c, cause, u, hwithdraw, hcartridge⟩ := resumeBox_violation (s := s.boxGiven op w) hw hp hshaping
  rw [exec_cartridgeReadComplete ho, receiveWord_box hop, hwithdraw, finish_idle (withdraw_not_working ..)]
  refine ⟨_, rfl, ?_, (withdraw_port ..).2, (withdraw_shaper c cause u).2⟩
  calc (startNextRead (withdraw c cause u)).cartridge.usable
      _ = (withdraw c cause u).cartridge.usable := startNext_usable _
      _ = u.cartridge.usable := (withdraw_cartridge ..).1
      _ = s.cartridge.usable.set slot false := congrArg CartridgePort.usable hcartridge

end

/-- Settles O5: the requester of the word, and how far the word brings it, say what happens. -/
theorem cartridgeReads : Obligations.CartridgeReads := by
  unfold Obligations.CartridgeReads
  refine ⟨Profile.passes_eq_false_iff, fun w ws a s hstate ho hws hwait => ⟨fun hlen => ?_, fun hlen => ?_⟩,
    fun w a b op r st s hw hn hs hbox ho hop hr => ⟨fun hread hst => ?_, fun slot item n i st' hread hagain hst hk hl hroom => ?_⟩,
    fun w a op b st s hw hn hs hshaping ho hop hb => ⟨fun c hread hst => ?_, fun slot item hread => ?_⟩,
    fun w who a s hq ho => abandonedRead_discarded hq ho⟩
  · refine ⟨_, exec_lastProfileWord hstate ho hws hwait hlen, profileRead_cartridge.1, fun h => ?_, fun h => ?_⟩
    · rw [profileRead_fails h]
      exact ⟨rfl, rfl, rfl, rfl, rfl⟩
    · rw [profileRead_passes h]
      exact ⟨rfl, rfl, rfl, rfl, rfl, rfl, rfl, rfl, rfl, rfl, rfl, rfl⟩
  · exact ⟨_, exec_earlierProfileWord hstate ho hws hwait hlen, hstate, rfl, rfl⟩
  · exact exec_shaperWord hw hn hs hbox ho hop hr hread hst
  · exact ⟨_, exec_shaperViolation hw hn hs hbox ho hop hr hread hagain hst hk hl hroom, rfl, rfl, rfl, rfl⟩
  · exact exec_boxWord hw hn hs hshaping ho hop hb hread hst
  · exact exec_boxViolation hw hshaping ho hop hb hread

end Sys2Proof.Machine
end

-- ==== proofs: grants, completions and the pending remainder ====
section
/-! What lets waiting work go on where nothing else waits: a granted reservation (R59), a box build (R71, R72), a completed
operation with its MEASURE (R70, R72), and the pending remainder (R74). -/

namespace Sys2Proof.Machine

/-! ### An event that sets nothing going -/

/-- Where nothing waits, for store room or otherwise, and no operation is in flight, an event sets nothing else going. -/
theorem finish_nothingWaits {s : State} (hw : s.working = true) (hn : s.nothingWaits = true) (hs : s.noStoreWait = true)
    (hop : s.shaper.op = none) (hbox : s.shaper.boxOp = none) : finish s = s := by
  obtain ⟨-, -, hreads, -⟩ := nothingWaits_parts hn
  have hfinish := finish_startsRead (c := s.cartridge) hw hn (grantStore_noStoreWait hs) (startMeasure_idle hop hbox)
  rwa [startNext_empty hreads] at hfinish

/-- R103: a frame that the port has room for enters the queue; only a PLACE frame can be held back. -/
theorem handOver_hasRoom {who : Producer} {f : Frame} {s : State} {u : Bool} (h : s.hasRoom who f.cls u = true)
    (hf : f.cls ≠ .place) : handOver who f s = s.withPort (s.port.enqueue f u false) := by
  simp only [State.hasRoom, Bool.and_eq_true, Bool.not_eq_true', beq_iff_eq] at h
  obtain ⟨⟨haccepts, hstalled⟩, hslot⟩ := h
  rw [handOver_enters haccepts hstalled hslot, entryMark_of_not_place hf]

theorem hasRoom_not_stalled {s : State} {who : Producer} {c : FrameClass} {u : Bool} (h : s.hasRoom who c u = true) :
    s.port.stalled who = false := by
  simp only [State.hasRoom, Bool.and_eq_true, Bool.not_eq_true'] at h
  exact h.1.2

/-! ### The pending remainder (R74) -/

theorem placeRemainder_some {s : State} {r : SegRecord} (hr : s.shaper.remainder = some r)
    (hroom : s.shaper.records.length < recordLimit) :
    placeRemainder s =
      s.withShaper { s.shaper with remainder := none, records := insertRecord r s.shaper.records } := by
  simp [placeRemainder, hr, hroom]

/-- Settles O21: the remainder is placed, and then nothing is left to do. -/
theorem remainderTakesRecord : Obligations.RemainderTakesRecord := by
  unfold Obligations.RemainderTakesRecord
  intro s r hw hr hwaiting hroom hquiet
  have hq := quiet_insertRecord (r := r) hquiet (by simp [hwaiting])
  change Host.Outcome.next (if s.working then finish (placeRemainder s) else s) = _
  rw [if_pos hw, placeRemainder_some hr hroom]
  exact congrArg Host.Outcome.next (finish_quiet hq)

/-! ### A waiting reservation (R58, R59) -/

/-- R59: where no box build waits for store room and none is in flight, the waiting record's reservation alone is granted. -/
theorem grantStore_record {s : State} {r : SegRecord} (hw : s.working = true) (hop : s.shaper.op = none)
    (hfirst : s.shaper.records.find? (fun x => x.state == .storeWait) = some r) (hroom : r.charCount ≤ s.shaper.free)
    (hboxes : ∀ b ∈ s.shaper.boxes, b.state ≠ .storeWait) : grantStore s = grantBox (beginShaping r s) := by
  have hany : s.shaper.boxes.any (fun b => b.state == .storeWait) = false := by simpa using hboxes
  have hshaping : grantShaping s = beginShaping r s := by simp [grantShaping, hfirst, hw, hop, hroom]
  simp [grantStore, hany, hshaping]

theorem grantBox_none {s : State} (hboxes : ∀ b ∈ s.shaper.boxes, b.state ≠ .storeWait) : grantBox s = s := by
  have hfind : s.shaper.boxes.find? (fun b => b.state == .storeWait) = none := by simpa using hboxes
  simp [grantBox, hfind]

/-- R57: the state in which record `r` has entered SHAPING and its operation holds no word. -/
def State.shapingEntered (s : State) (r : SegRecord) : State :=
  s.withShaper { s.shaper.mapRecord r.start (fun x => { x with state := .shaping }) with
    op := some ⟨r.start, r.charCount, []⟩ }

/-- Once the one record that waits for store room is granted, none waits. -/
theorem shapingEntered_noStoreWait {s : State} {r : SegRecord}
    (hone : s.shaper.records.filter (fun x => x.state == .storeWait) = [r])
    (hboxes : s.shaper.boxes.all (fun b => b.state != .storeWait) = true) : (s.shapingEntered r).noStoreWait = true := by
  have hrecords : ∀ x ∈ (s.shapingEntered r).shaper.records, x.state ≠ .storeWait := by
    intro x hx
    obtain ⟨y, hy, rfl⟩ := List.mem_map.mp hx
    split
    · simp
    next hstart =>
      intro hwait
      have hmem : y ∈ s.shaper.records.filter (fun x => x.state == .storeWait) := by simp [hy, hwait]
      rw [hone, List.mem_singleton] at hmem
      simp [hmem] at hstart
  simp only [State.noStoreWait, Bool.and_eq_true, List.all_eq_true, bne_iff_ne] at hboxes ⊢
  exact ⟨hrecords, hboxes⟩

theorem shapingEntered_progress {s : State} {r : SegRecord} {x : Except ReadStop ShapeResult} {st : ReadState}
    (hr : s.shaper.record? r.start = some r)
    (hread : runReader (shapeSegment s.readEnv (s.shapeInput r)) [] = (x, st)) :
    (s.shapingEntered r).shapingProgress = some (⟨r.start, r.charCount, []⟩, { r with state := .shaping }, x, st) :=
  shapingProgress_some (s := s.shapingEntered r) (op := ⟨r.start, r.charCount, []⟩) rfl
    (record?_mapRecord (fun _ => rfl) hr) hread

/-- R40: an operation just begun, whose first lookup needs a word, asks for it. -/
theorem beginShaping_asks {s : State} {r : SegRecord} {a : Nat} {st : ReadState} (hr : s.shaper.record? r.start = some r)
    (hread : runReader (shapeSegment s.readEnv (s.shapeInput r)) [] = (.error (.need a), st)) :
    beginShaping r s = (s.shapingEntered r).withCartridge (s.cartridge.request .shaper a) := by
  change resumeShaping 18 (s.shapingEntered r) = _
  rw [resumeShaping, shapingEntered_progress hr hread]
  rfl

/-- Settles O17: the one waiting record is granted, and only its first word is asked for. -/
theorem storeWaitGranted : Obligations.StoreWaitGranted := by
  unfold Obligations.StoreWaitGranted
  intro s r a st hw hn hop hbox hboxes hone hr hroom hread hst
  have hfirst : s.shaper.records.find? (fun x => x.state == .storeWait) = some r := by
    rw [← List.head?_filter, hone]
    rfl
  have hnoBox : ∀ b ∈ s.shaper.boxes, b.state ≠ .storeWait := by simpa using hboxes
  have hgrant : grantStore s = (s.shapingEntered r).withCartridge (s.cartridge.request .shaper a) := by
    rw [grantStore_record hw hop hfirst hroom hnoBox, beginShaping_asks hr hread]
    exact grantBox_none (s := (s.shapingEntered r).withCartridge _) hnoBox
  change Host.Outcome.next (if s.working then finish (grantStore s) else s) = _
  rw [if_pos hw, hgrant]
  exact congrArg Host.Outcome.next (finish_startsRead (s := s.shapingEntered r) hw hn
    (grantStore_noStoreWait (shapingEntered_noStoreWait hone hboxes))
    (startMeasure_unshaped (shapingEntered_progress hr hread) hst hbox))

/-! ### A completed shaping operation (R70) -/

/-- What it says that the shaping operation has come to `x`. -/
theorem shapingProgress_parts {s : State} {op : Operation} {r : SegRecord} {x : Except ReadStop ShapeResult}
    {st : ReadState} (h : s.shapingProgress = some (op, r, x, st)) :
    s.shaper.op = some op ∧ s.shaper.record? op.start = some r := by
  unfold State.shapingProgress at h
  split at h
  · cases h
  next o ho =>
    obtain ⟨r', hr, heq⟩ := Option.map_eq_some_iff.mp h
    cases heq
    exact ⟨ho, hr⟩

/-- The first record of a start index, where every record of that index is rewritten to one that keeps it. -/
theorem record?_mapRecord_at {h : Shaper} {i : CopyIndex} {f : SegRecord → SegRecord} {r : SegRecord}
    (hf : ∀ x, x.start = i → (f x).start = i) (hr : h.record? i = some r) :
    (h.mapRecord i f).record? i = some (f r) := by
  unfold Shaper.record? Shaper.mapRecord at *
  revert hr
  dsimp only
  induction h.records with
  | nil => simp
  | cons x l ih =>
    by_cases hx : x.start = i
    · simp only [List.map_cons, hx, hf x hx, beq_self_eq_true, if_true, List.find?_cons_of_pos, Option.some.injEq]
      exact congrArg f
    · simpa [hx] using ih

/-- Rewriting a record without touching its state makes no record wait for store room. -/
theorem noStoreWait_rewrite {s : State} {i : CopyIndex} {f : SegRecord → SegRecord} (hs : s.noStoreWait = true)
    (hf : ∀ x, (f x).state = x.state) : (s.withShaper (s.shaper.mapRecord i f)).noStoreWait = true := by
  simp only [State.noStoreWait, Bool.and_eq_true, List.all_eq_true, bne_iff_ne] at hs ⊢
  obtain ⟨hrecords, hboxes⟩ := hs
  refine ⟨fun x hx => ?_, hboxes⟩
  obtain ⟨y, hy, rfl⟩ := List.mem_map.mp hx
  split
  · rw [hf]
    exact hrecords y hy
  · exact hrecords y hy

/-- R70: the state in which the shaping operation on `start` has left its record as `done`, before its MEASURE is made. -/
def State.shapingDone (s : State) (start : CopyIndex) (done : SegRecord) : State :=
  (s.withMeasure s.measure.idle).withShaper { s.shaper.mapRecord start (fun _ => done) with op := none }

/-- R70: a MEASURE that the port has room for enters the queue, and its record says so. -/
theorem publishRecord_enters {r : SegRecord} {s : State} (h : s.hasRoom .shaper .measure false = true) :
    publishRecord r s = (s.withPort (s.port.enqueue (r.measureFrame s.port) false false)).withShaper
      (s.shaper.mapRecord r.start (fun x => { x with measureQueued := true })) := by
  have hstalled : (s.port.enqueue (r.measureFrame s.port) false false).stalled .shaper = false := hasRoom_not_stalled h
  have hcls : (r.measureFrame s.port).cls = .measure := BusPort.frame_cls ..
  rw [publishRecord, handOver_hasRoom (by rw [hcls]; exact h) (by rw [hcls]; decide)]
  simp [hstalled]

/-- R61, R70: an operation that has measured its records, with no miss left to report, completes. -/
theorem completeShaping_done {s : State} {op : Operation} {r : SegRecord} {res : ShapeResult} {st : ReadState}
    (hw : s.working = true) (hp : s.shapingProgress = some (op, r, .ok res, st))
    (hm : s.measure.segment = some op.start) (hmisses : r.missesReported = true ∨ res.misses = []) :
    completeShaping s = publishRecord (r.completed res s.measure.numerator)
      (s.shapingDone op.start (r.completed res s.measure.numerator)) := by
  rw [completeShaping, if_pos hw, hp]
  simp only [hm, if_true]
  refine congrArg (publishRecord _) ?_
  rcases hmisses with h | h
  · rw [if_pos h]
    rfl
  · rw [h]
    exact ite_self _

/-- Settles O18: the completed record is published, and then nothing is left to do. -/
theorem shapingCompletes : Obligations.ShapingCompletes := by
  unfold Obligations.ShapingCompletes
  intro s op r res st hw hp hm hn hs hbox hmisses hroom
  obtain ⟨-, hr⟩ := shapingProgress_parts hp
  have hstart : r.start = op.start := by simpa using List.find?_some hr
  let done := r.completed res s.measure.numerator
  let u := s.shapingDone op.start done
  let t := (u.withPort (u.port.enqueue (done.measureFrame u.port) false false)).withShaper
    (u.shaper.mapRecord done.start (fun x => { x with measureQueued := true }))
  have ht : completeShaping s = t :=
    (completeShaping_done hw hp hm hmisses).trans (publishRecord_enters (s := u) hroom)
  have hsu : u.noStoreWait = true :=
    noStoreWait_mapRecord (s := s.withMeasure s.measure.idle) hs (by simp [done, SegRecord.completed])
  have hst : t.noStoreWait = true :=
    noStoreWait_rewrite (s := u.withPort (u.port.enqueue (done.measureFrame u.port) false false)) hsu fun _ => rfl
  have hru : u.shaper.record? done.start = some done := by
    rw [show done.start = op.start from hstart]
    exact record?_mapRecord_at (fun _ _ => hstart) hr
  have hrt : t.shaper.record? op.start = some { done with measureQueued := true } := by
    rw [← show done.start = op.start from hstart]
    exact record?_mapRecord (fun _ => rfl) hru
  refine ⟨t, { done with measureQueued := true }, ?_, rfl, rfl, hrt, rfl, rfl, rfl, rfl, rfl, rfl⟩
  change Host.Outcome.next (if s.working then finish (completeShaping s) else s) = _
  rw [if_pos hw, ht]
  exact congrArg Host.Outcome.next (finish_nothingWaits (s := t) hw hn hst rfl hbox)

/-! ### Box segment records (R72) -/

theorem atOrAfter_self (i : BitVec 16) : atOrAfter i i = true := by simp [atOrAfter, distance]

/-- R72: a new record takes its place before every other of its start index. -/
theorem insertBox_split (b : BoxRecord) (l : List BoxRecord) :
    ∃ before after, insertBox b l = before ++ b :: after ∧ l = before ++ after ∧
      ∀ x ∈ before, x.start ≠ b.start := by
  induction l with
  | nil => exact ⟨[], [], rfl, rfl, by simp⟩
  | cons x l ih =>
    unfold insertBox
    split
    · exact ⟨[], x :: l, rfl, rfl, by simp⟩
    next hx =>
      obtain ⟨before, after, hinsert, hl, hbefore⟩ := ih
      refine ⟨x :: before, after, by rw [hinsert]; rfl, by rw [hl]; rfl, fun y hy => ?_⟩
      rcases List.mem_cons.mp hy with rfl | hy
      · exact fun heq => hx (heq ▸ atOrAfter_self _)
      · exact hbefore y hy

theorem changeFirst_append {α : Type} {p : α → Bool} {f : α → α} {before : List α} (x : α) (after : List α)
    (hb : ∀ y ∈ before, p y = false) (hx : p x = true) :
    changeFirst p f (before ++ x :: after) = before ++ f x :: after := by
  induction before with
  | nil => simp [changeFirst, hx]
  | cons y before ih =>
    obtain ⟨hy, hrest⟩ := List.forall_mem_cons.mp hb
    simp [changeFirst, hy, ih hrest]

/-- A new record that is rewritten at once stands where it was put; the others are left as they are. -/
theorem changeFirst_insertBox (b : BoxRecord) (f : BoxRecord → BoxRecord) (l : List BoxRecord) :
    ∃ before after, changeFirst (fun x => x == b) f (insertBox b l) = before ++ f b :: after ∧ l = before ++ after ∧
      ∀ x ∈ before, x.start ≠ b.start := by
  obtain ⟨before, after, hinsert, hl, hbefore⟩ := insertBox_split b l
  refine ⟨before, after, ?_, hl, hbefore⟩
  rw [hinsert]
  refine changeFirst_append b after (fun y hy => ?_) (beq_self_eq_true b)
  exact beq_eq_false_iff_ne.mpr fun h => hbefore y hy (congrArg BoxRecord.start h)

/-- The record of a start index, where those that stand before it start elsewhere. -/
theorem find_start_append {before after : List BoxRecord} {b : BoxRecord} {i : CopyIndex} (q : BoxRecord → Bool)
    (hb : ∀ x ∈ before, x.start ≠ i) (hi : b.start = i) (hq : q b = true) :
    (before ++ b :: after).find? (fun x => x.start == i && q x) = some b := by
  have hnone : before.find? (fun x => x.start == i && q x) = none := by
    rw [List.find?_eq_none]
    intro x hx
    simp [hb x hx]
  simp [List.find?_append, hnone, hi, hq]

theorem box?_append {h : Shaper} {before after : List BoxRecord} {b : BoxRecord} {i : CopyIndex}
    (hboxes : h.boxes = before ++ b :: after) (hb : ∀ x ∈ before, x.start ≠ i) (hi : b.start = i) :
    h.box? i = some b := by
  have hfind := find_start_append (after := after) (fun _ => true) hb hi rfl
  simp only [Bool.and_true] at hfind
  rw [Shaper.box?, hboxes, hfind]

/-- No record waits for store room where the box segment records are those of such a state and one that does not. -/
theorem noStoreWait_boxes {s t : State} {before after : List BoxRecord} {b : BoxRecord} (hs : s.noStoreWait = true)
    (hrecords : t.shaper.records = s.shaper.records) (hboxes : t.shaper.boxes = before ++ b :: after)
    (hsub : ∀ x ∈ before ++ after, x ∈ s.shaper.boxes) (hb : b.state ≠ .storeWait) : t.noStoreWait = true := by
  simp only [State.noStoreWait, Bool.and_eq_true, List.all_eq_true, bne_iff_ne] at hs ⊢
  rw [hrecords, hboxes]
  refine ⟨hs.1, fun x hx => ?_⟩
  rcases List.mem_append.mp hx with hx | hx
  · exact hs.2 x (hsub x (List.mem_append_left _ hx))
  · rcases List.mem_cons.mp hx with rfl | hx
    · exact hb
    · exact hs.2 x (hsub x (List.mem_append_right _ hx))

/-! ### A box build begins (R71, R72) -/

/-- R72: the record of a box segment whose build has not started. -/
def BoxPlan.record (p : BoxPlan) : BoxRecord :=
  ⟨p.start, p.itemCount, p.charCount, p.level, p.continues, 0, [], false, .storeWait⟩

/-- R72: the state in which the next box segment of the plan has a record. -/
def State.boxTaken (s : State) (p : BoxPlan) (rest : List BoxPlan) : State :=
  s.withShaper { s.shaper with plan := rest, boxes := insertBox p.record s.shaper.boxes }

theorem glyphTotal_insertBox (b : BoxRecord) (l : List BoxRecord) :
    glyphTotal ((insertBox b l).map (·.glyphs)) = b.glyphs.length + glyphTotal (l.map (·.glyphs)) := by
  obtain ⟨before, after, hinsert, rfl, -⟩ := insertBox_split b l
  simp only [hinsert, glyphTotal, List.map_append, List.map_cons, List.sum_append, List.sum_cons]
  omega

/-- R58: a record whose build has not started holds nothing of the store. -/
theorem boxTaken_held (s : State) (p : BoxPlan) (rest : List BoxPlan) :
    (s.boxTaken p rest).shaper.held = s.shaper.held := by
  simp [State.boxTaken, Shaper.held, glyphTotal_insertBox, BoxPlan.record]

theorem boxTaken_free (s : State) (p : BoxPlan) (rest : List BoxPlan) :
    (s.boxTaken p rest).shaper.free = s.shaper.free := by
  rw [Shaper.free, boxTaken_held]
  rfl

theorem canStartBox_parts {s : State} (h : s.canStartBox = true) : s.working = true ∧ s.shaper.boxOp = none := by
  simp only [State.canStartBox, Bool.and_eq_true, Option.isNone_iff_eq_none] at h
  obtain ⟨⟨⟨⟨hw, hbox⟩, -⟩, -⟩, -⟩ := h
  exact ⟨hw, hbox⟩

/-- R72: the box builder takes the head of its plan. -/
theorem startBox_cons {s : State} {p : BoxPlan} {rest : List BoxPlan} (hc : s.canStartBox = true)
    (hplan : s.shaper.plan = p :: rest) :
    startBox s = if p.charCount ≤ s.shaper.free then beginBox p.record (s.boxTaken p rest)
      else checkStoreFull p.start p.charCount (s.boxTaken p rest) := by
  rw [← boxTaken_free s p rest, startBox, if_pos hc, hplan]
  rfl

/-- R71: the state in which the build of `b` is granted and holds no word. -/
def State.boxEntered (s : State) (b : BoxRecord) : State :=
  s.withShaper { s.shaper.mapBox (fun x => x == b) (fun x => { x with state := .building }) with
    boxOp := some ⟨b.start, b.charCount, []⟩ }

/-- Settles O19: the planned box segment takes a record, its build is granted, and only its first word is asked for. -/
theorem boxBuildStarts : Obligations.BoxBuildStarts := by
  unfold Obligations.BoxBuildStarts
  intro s p rest a st hc hq hplan _ hroom hread hst
  obtain ⟨hw, -⟩ := canStartBox_parts hc
  obtain ⟨-, -, -, hop, -⟩ := quiet_parts hq
  obtain ⟨hn, hs⟩ := quiet_nothingWaits hq
  let b : BoxRecord := { p.record with state := .building }
  let u := (s.boxTaken p rest).boxEntered p.record
  obtain ⟨before, after, hboxes, hl, hbefore⟩ :=
    changeFirst_insertBox p.record (fun x => { x with state := .building }) s.shaper.boxes
  change u.shaper.boxes = before ++ b :: after at hboxes
  have hsu : u.noStoreWait = true :=
    noStoreWait_boxes hs rfl hboxes (fun x hx => hl ▸ hx) (by simp [b])
  have hbuilding : u.shaper.building? p.start = some b := by
    rw [Shaper.building?, hboxes]
    exact find_start_append (fun x => x.state == .building) hbefore rfl rfl
  have hfinish : finish (startBox s) = u.withCartridge (s.cartridge.request .box a).startNext := by
    rw [startBox_cons hc hplan, if_pos hroom]
    exact finish_resumeBox (s := u) (op := ⟨p.start, p.charCount, []⟩) hw hn hsu hop rfl hbuilding hread hst
  refine ⟨u.withCartridge (s.cartridge.request .box a).startNext, b, ?_, rfl, box?_append hboxes hbefore rfl,
    rfl, rfl, rfl, rfl, rfl, rfl, rfl⟩
  change Host.Outcome.next (if s.canStartBox then finish (startBox s) else s) = _
  rw [if_pos hc, hfinish]

/-! ### A completed box build (R71, R72) -/

/-- What it says that the box build has come to `x`. -/
theorem boxProgress_parts {s : State} {op : Operation} {b : BoxRecord} {x : Except ReadStop ShapeResult}
    {st : ReadState} (h : s.boxProgress = some (op, b, x, st)) :
    s.shaper.boxOp = some op ∧ s.shaper.building? op.start = some b := by
  unfold State.boxProgress at h
  split at h
  · cases h
  next o ho =>
    obtain ⟨b', hb, heq⟩ := Option.map_eq_some_iff.mp h
    cases heq
    exact ⟨ho, hb⟩

/-- R71: the record as its build leaves it, `n` the numerator the measure unit holds. -/
def BoxRecord.completed (b : BoxRecord) (res : ShapeResult) (n : Nat) : BoxRecord :=
  { b with state := .ready, glyphs := res.glyphs, width := roundHalfUp n }

/-- R72: the state in which the build of `b` has left its record as `done`, before its MEASURE is made. -/
def State.boxDone (s : State) (b done : BoxRecord) : State :=
  (s.withMeasure s.measure.idle).withShaper
    { s.shaper with boxes := insertBox done (s.shaper.boxes.erase b), boxOp := none }

/-- R72: a MEASURE that the port has room for enters the queue, and its record says so. -/
theorem publishBox_enters {b : BoxRecord} {s : State} (h : s.hasRoom .boxBuilder .measure false = true) :
    publishBox b s = (s.withPort (s.port.enqueue (b.measureFrame s.port) false false)).withShaper
      (s.shaper.mapBox (fun x => x == b) (fun x => { x with measureQueued := true })) := by
  have hstalled : (s.port.enqueue (b.measureFrame s.port) false false).stalled .boxBuilder = false := hasRoom_not_stalled h
  have hcls : (b.measureFrame s.port).cls = .measure := BusPort.frame_cls ..
  rw [publishBox, handOver_hasRoom (by rw [hcls]; exact h) (by rw [hcls]; decide)]
  simp [hstalled]

/-- R71: a build that has measured its records completes. -/
theorem completeBox_done {s : State} {op : Operation} {b : BoxRecord} {res : ShapeResult} {st : ReadState}
    (hw : s.working = true) (hp : s.boxProgress = some (op, b, .ok res, st)) (hm : s.measure.segment = some op.start) :
    completeBox s = publishBox (b.completed res s.measure.numerator)
      (s.boxDone b (b.completed res s.measure.numerator)) := by
  rw [completeBox, if_pos hw, hp]
  simp only [hm, if_true]
  rfl

/-- Settles O20: the completed box is published, and then nothing is left to do. -/
theorem boxBuildCompletes : Obligations.BoxBuildCompletes := by
  unfold Obligations.BoxBuildCompletes
  intro s op b res st hw hp hm hn hs hop hroom
  obtain ⟨-, hb⟩ := boxProgress_parts hp
  have hstart : b.start = op.start := by
    have h := List.find?_some hb
    simp only [Bool.and_eq_true, beq_iff_eq] at h
    exact h.1
  let done := b.completed res s.measure.numerator
  let d := { done with measureQueued := true }
  let u := s.boxDone b done
  let t := (u.withPort (u.port.enqueue (done.measureFrame u.port) false false)).withShaper
    (u.shaper.mapBox (fun x => x == done) (fun x => { x with measureQueued := true }))
  have ht : completeBox s = t := (completeBox_done hw hp hm).trans (publishBox_enters (s := u) hroom)
  obtain ⟨before, after, hboxes, hl, hbefore⟩ :=
    changeFirst_insertBox done (fun x => { x with measureQueued := true }) (s.shaper.boxes.erase b)
  change t.shaper.boxes = before ++ d :: after at hboxes
  have hst : t.noStoreWait = true :=
    noStoreWait_boxes hs rfl hboxes (fun x hx => List.mem_of_mem_erase (hl ▸ hx)) (by simp [d, done, BoxRecord.completed])
  have hbox : t.shaper.box? op.start = some d := hstart ▸ box?_append hboxes hbefore rfl
  refine ⟨t, d, ?_, rfl, rfl, hbox, rfl, rfl, rfl, rfl, rfl⟩
  change Host.Outcome.next (if s.working then finish (completeBox s) else s) = _
  rw [if_pos hw, ht]
  exact congrArg Host.Outcome.next (finish_nothingWaits (s := t) hw hn hst hop rfl)

end Sys2Proof.Machine
end

-- ==== proofs: the glyph records an operation makes ====
section
/-! How many glyph records a shaping operation, a box build and a cut make (R61 to R67, R71, R73). -/

namespace Sys2Proof.Machine

/-! ### What a reader yields -/

/-- Whatever words the reader is run on, a result it ends with satisfies `P`. -/
def Yields {α : Type} (r : Reader α) (P : α → Prop) : Prop :=
  ∀ (st st' : ReadState) (a : α), StateT.run (ExceptT.run r) st = (.ok a, st') → P a

section
variable {α β : Type} {P : α → Prop} {Q : β → Prop}

theorem yields_pure {a : α} (h : P a) : Yields (pure a) P := by
  rintro st st' b ⟨⟩
  exact h

theorem yields_throw (e : ReadStop) : Yields (throw e : Reader α) P := by
  rintro st st' b ⟨⟩

theorem yields_any (r : Reader α) : Yields r fun _ => True := fun _ _ _ _ => trivial

theorem yields_bind {r : Reader α} {f : α → Reader β} (hr : Yields r P) (hf : ∀ a, P a → Yields (f a) Q) :
    Yields (r >>= f) Q := by
  intro st st' b h
  rw [ExceptT.run_bind, StateT.run_bind] at h
  rcases hx : StateT.run (ExceptT.run r) st with ⟨e | a, st1⟩ <;> rw [hx] at h
  · cases h
  · exact hf a (hr st st1 a hx) st1 st' b h

/-- What a reader yields after a read whose result does not matter. -/
theorem yields_after {r : Reader α} {f : α → Reader β} (hf : ∀ a, Yields (f a) Q) : Yields (r >>= f) Q :=
  yields_bind (yields_any r) fun a _ => hf a

theorem yields_ite {c : Prop} [Decidable c] {r q : Reader α} (hr : Yields r P) (hq : Yields q P) :
    Yields (if c then r else q) P := by
  split
  · exact hr
  · exact hq

theorem Yields.mono {P' : α → Prop} {r : Reader α} (h : Yields r P) (hP : ∀ a, P a → P' a) : Yields r P' :=
  fun st st' a hrun => hP a (h st st' a hrun)

/-- A reader that puts one more element before what another yields. -/
theorem yields_cons {r : Reader (List α)} {n : Nat} (a : α) (h : Yields r fun l => l.length = n) :
    Yields (r >>= fun l => pure (a :: l)) fun l => l.length = n + 1 :=
  yields_bind h fun _ hl => yields_pure (congrArg (· + 1) hl)

end

/-! ### The steps of shaping (R61 to R67) -/

section
variable (env : ReadEnv) (inp : ShapeInput)

/-- R61: one record for each character. -/
theorem mapChars_length (cs : List ShapeChar) : Yields (mapChars env inp cs) fun ws => ws.length = cs.length := by
  induction cs with
  | nil => exact yields_pure rfl
  | cons c cs ih => exact yields_after fun w => yields_cons w ih

theorem readProps_length (ws : List Work) : Yields (readProps env ws) fun ps => ps.length = ws.length := by
  induction ws with
  | nil => exact yields_pure rfl
  | cons w ws ih => exact yields_after fun p => yields_cons (w, p) ih

/-- R62: forms replace glyphs one for one. -/
theorem applyForms_length (n : Nat) (ws : List (Work × (Bool × Bool))) :
    Yields (applyForms env n ws) fun out => out.length = ws.length := by
  induction ws generalizing n with
  | nil => exact yields_pure rfl
  | cons w ws ih =>
    unfold applyForms
    dsimp only
    split
    · exact yields_after fun _ => yields_cons _ (ih _)
    · exact yields_after fun _ => yields_cons _ (ih _)

theorem joinStep_length (ws : List Work) : Yields (joinStep env inp ws) fun out => out.length ≤ ws.length := by
  refine yields_ite (yields_bind (readProps_length env ws) fun ps _ => ?_) (yields_pure (Nat.le_refl _))
  refine (applyForms_length env _ _).mono fun out hout => ?_
  rw [hout, List.length_zip]
  exact Nat.min_le_left _ _

/-- R64: the marks passed over and what stands after the last component were all offered. -/
theorem takeComponents_length (n : Nat) (last : Work) (rest : List (Work × GlyphProps)) :
    (takeComponents n last rest).1.length + (takeComponents n last rest).2.2.length ≤ rest.length := by
  fun_induction takeComponents n last rest with
  | case1 => simp
  | case2 => simp
  | case3 n last x p rest hmark r ih =>
    simp only [List.length_cons, r]
    omega
  | case4 n last x p rest hmark ih =>
    simp only [List.length_cons]
    omega

/-- R64: a ligature stands in the place of its components, so the walk makes no more records than it is given. -/
theorem ligateWalk_length (fuel : Nat) (ws : List (Work × GlyphProps)) :
    Yields (ligateWalk env inp fuel ws) fun out => out.length ≤ ws.length := by
  induction fuel generalizing ws with
  | zero => exact yields_pure (by simp)
  | succ fuel ih =>
    cases ws with
    | nil => exact yields_pure (Nat.le_refl 0)
    | cons x rest =>
      obtain ⟨w, p⟩ := x
      have hkept : Yields (ligateWalk env inp fuel rest >>= fun ws => pure (w :: ws))
          fun out => out.length ≤ rest.length + 1 :=
        yields_bind (ih rest) fun out hout => yields_pure (Nat.succ_le_succ hout)
      refine yields_ite hkept (yields_after fun hit => ?_)
      cases hit with
      | none => exact hkept
      | some hit =>
        refine yields_bind (ih _) fun out hout => yields_pure ?_
        have htaken := takeComponents_length (hit.1 - 1) w rest
        simp only [List.length_append, List.length_cons, List.length_map]
        omega

theorem ligateStep_length (ws : List Work) : Yields (ligateStep env inp ws) fun out => out.length ≤ ws.length :=
  yields_bind (readProps_length env ws) fun ps hps => hps ▸ ligateWalk_length env inp ps.length ps

/-- R65: a pre-base glyph put before another joins the run. -/
theorem putBefore_length {x : Work × GlyphProps} {run out : List (Work × GlyphProps)}
    (h : putBefore inp x run = some out) : out.length = run.length + 1 := by
  induction run generalizing out with
  | nil => cases h
  | cons y run ih =>
    unfold putBefore at h
    split at h
    · obtain ⟨m, hm, rfl⟩ := Option.map_eq_some_iff.mp h
      exact congrArg (· + 1) (ih hm)
    · split at h
      · cases h
      · cases h
        rfl

/-- R65: reordering loses and adds nothing. -/
theorem reorder_length (run ws : List (Work × GlyphProps)) :
    (reorder inp run ws).length = run.length + ws.length := by
  induction ws generalizing run with
  | nil => simp [reorder]
  | cons x ws ih =>
    have hput : ((putBefore inp x run).getD (x :: run)).length = run.length + 1 := by
      cases hp : putBefore inp x run with
      | none => rfl
      | some out => exact putBefore_length inp hp
    unfold reorder
    split <;> simp only [ih, hput, List.length_cons] <;> omega

theorem preBaseStep_length (ws : List Work) : Yields (preBaseStep env inp ws) fun out => out.length = ws.length :=
  yields_ite (yields_bind (readProps_length env ws) fun ps hps => yields_pure (by simp [reorder_length, hps]))
    (yields_pure rfl)

/-- R66: marks keep their places. -/
theorem placeMarks_length (base : Option (Work × GlyphProps)) (ws : List (Work × GlyphProps)) :
    Yields (placeMarks env base ws) fun out => out.length = ws.length := by
  induction ws generalizing base with
  | nil => exact yields_pure rfl
  | cons x ws ih =>
    unfold placeMarks
    refine yields_ite ?_ (yields_cons _ (ih (some x)))
    dsimp only
    split
    · exact yields_after fun _ => yields_cons _ (ih _)
    · refine yields_after fun ba => yields_after fun ma => ?_
      split <;> exact yields_after fun _ => yields_cons _ (ih _)

theorem markStep_length (ws : List Work) : Yields (markStep env ws) fun out => out.length = ws.length :=
  yields_bind (readProps_length env ws) fun ps hps => hps ▸ placeMarks_length env none ps

/-- R67: every record gets its advance. -/
theorem setAdvances_length (ws : List (Work × GlyphProps)) :
    Yields (setAdvances env inp ws) fun out => out.length = ws.length := by
  induction ws with
  | nil => exact yields_pure rfl
  | cons x ws ih =>
    unfold setAdvances
    dsimp only
    refine yields_ite (yields_after fun _ => yields_cons _ ih) ?_
    split
    · exact yields_after fun _ => yields_cons _ ih
    · exact yields_ite (yields_after fun _ => yields_after fun _ => yields_cons _ ih)
        (yields_after fun _ => yields_cons _ ih)

theorem advanceStep_length (ws : List Work) : Yields (advanceStep env inp ws) fun out => out.length = ws.length :=
  yields_bind (readProps_length env ws) fun ps hps => hps ▸ setAdvances_length env inp ps

/-! ### Whole operations (R61, R71) -/

/-- R61 to R67: mapping makes a record for each character, and no later step adds one. -/
theorem shapeSegment_length : Yields (shapeSegment env inp) fun res => res.glyphs.length ≤ inp.chars.length := by
  refine yields_bind (mapChars_length env inp inp.chars) fun mapped hmapped => ?_
  refine yields_bind (joinStep_length env inp mapped) fun joined hjoined => ?_
  refine yields_bind (ligateStep_length env inp joined) fun ligated hligated => ?_
  refine yields_bind (preBaseStep_length env inp ligated) fun ordered hordered => ?_
  refine yields_bind (markStep_length env ordered) fun marked hmarked => ?_
  refine yields_bind (advanceStep_length env inp marked) fun advanced hadvanced => ?_
  refine yields_after fun opps => yields_after fun _ => yields_after fun e => yields_pure ?_
  simp only [List.length_map]
  omega

/-- R71: a box build makes one record for each character. -/
theorem shapeBox_length (start : CopyIndex) (chars : List ShapeChar) :
    Yields (shapeBox env start chars) fun res => res.glyphs.length = chars.length := by
  unfold shapeBox
  refine yields_ite (yields_throw _) ?_
  exact yields_after fun f => yields_after fun p => yields_after fun _ => yields_pure (by simp)

end

/-- R73: the hyphen glyph of a first part takes the place of a record that goes to the remainder. -/
theorem firstPartGlyphs_length {gs : List GlyphRecord} {o : Opportunity} (h : o.split < gs.length) :
    (firstPartGlyphs gs o).length ≤ gs.length := by
  have htake : (gs.take o.split).length = o.split := List.length_take_of_le (Nat.le_of_lt h)
  unfold firstPartGlyphs
  cases o.clearAt with
  | none | some _ =>
    dsimp only
    split <;> simp only [List.length_append, List.length_singleton, List.length_modify, htake] <;> omega

end Sys2Proof.Machine
end

-- ==== proofs: the bounds of the glyph store ====
section
/-! The commands that grant a reservation, and what an event sets going after them, keep the glyph records held and reserved within
the glyph store (R58, R59, R71). -/

namespace Sys2Proof.Machine

/-- R58, R74: no remainder is pending, and the glyph records held and reserved fit the store. -/
def Shaper.Bounded (h : Shaper) : Prop := h.remainder = none ∧ h.held + h.reserved ≤ storeSize

theorem Shaper.Bounded.of_le {h g : Shaper} (hb : h.Bounded) (hremainder : g.remainder = h.remainder)
    (hheld : g.held ≤ h.held) (hreserved : g.reserved ≤ h.reserved) : g.Bounded :=
  ⟨hremainder.trans hb.1, (Nat.add_le_add hheld hreserved).trans hb.2⟩

/-- R58: what the free count covers may be reserved. -/
theorem Shaper.Bounded.reserve {h g : Shaper} {n : Nat} (hb : h.Bounded) (hremainder : g.remainder = h.remainder)
    (hheld : g.held = h.held) (hreserved : g.reserved = h.reserved + n) (hroom : n ≤ h.free) : g.Bounded := by
  obtain ⟨hnone, hfits⟩ := hb
  refine ⟨hremainder.trans hnone, ?_⟩
  rw [hheld, hreserved]
  unfold Shaper.free at hroom
  omega

/-! ### The glyph records held (R58) -/

theorem glyphs_map {l : List SegRecord} {f : SegRecord → SegRecord} (hf : ∀ x, (f x).glyphs = x.glyphs) :
    (l.map f).map (·.glyphs) = l.map (·.glyphs) := by
  simp [Function.comp_def, hf]

theorem mapRecord_held {h : Shaper} {i : CopyIndex} {f : SegRecord → SegRecord} (hf : ∀ x, (f x).glyphs = x.glyphs) :
    (h.mapRecord i f).held = h.held := by
  rw [Shaper.held, Shaper.mapRecord, glyphs_map fun x => by split <;> simp [hf]]
  rfl

theorem mapBox_held {h : Shaper} {p : BoxRecord → Bool} {f : BoxRecord → BoxRecord}
    (hf : ∀ x, (f x).glyphs = x.glyphs) : (h.mapBox p f).held = h.held := by
  have hglyphs : (changeFirst p f h.boxes).map (·.glyphs) = h.boxes.map (·.glyphs) := by
    induction h.boxes with
    | nil => rfl
    | cons x l ih =>
      unfold changeFirst
      split
      · simp [hf]
      · simp [ih]
  rw [Shaper.held, Shaper.mapBox, hglyphs]
  rfl

theorem glyphTotal_filter_le (p : BoxRecord → Bool) (l : List BoxRecord) :
    glyphTotal ((l.filter p).map (·.glyphs)) ≤ glyphTotal (l.map (·.glyphs)) := by
  induction l with
  | nil => exact Nat.le_refl _
  | cons x l ih =>
    unfold glyphTotal at ih ⊢
    rw [List.filter_cons]
    split <;> simp only [List.map_cons, List.sum_cons] <;> omega

theorem glyphTotal_insertRecord (r : SegRecord) (l : List SegRecord) :
    glyphTotal ((insertRecord r l).map (·.glyphs)) = r.glyphs.length + glyphTotal (l.map (·.glyphs)) := by
  induction l with
  | nil => rfl
  | cons x l ih =>
    unfold glyphTotal at ih ⊢
    unfold insertRecord
    split <;> simp only [List.map_cons, List.sum_cons] at ih ⊢
    omega

/-- Records rewritten without touching their glyph records. -/
theorem Shaper.Bounded.mapRecords {h : Shaper} {f : SegRecord → SegRecord} (hb : h.Bounded)
    (hf : ∀ x, (f x).glyphs = x.glyphs) : Shaper.Bounded { h with records := h.records.map f } := by
  refine hb.of_le rfl (Nat.le_of_eq ?_) (Nat.le_refl _)
  rw [Shaper.held, glyphs_map hf]
  rfl

theorem Shaper.Bounded.mapRecord {h : Shaper} {i : CopyIndex} {f : SegRecord → SegRecord} (hb : h.Bounded)
    (hf : ∀ x, (f x).glyphs = x.glyphs) : (h.mapRecord i f).Bounded :=
  hb.mapRecords fun x => by split <;> simp [hf]

theorem Shaper.Bounded.mapBox {h : Shaper} {p : BoxRecord → Bool} {f : BoxRecord → BoxRecord} (hb : h.Bounded)
    (hf : ∀ x, (f x).glyphs = x.glyphs) : (h.mapBox p f).Bounded :=
  hb.of_le rfl (Nat.le_of_eq (mapBox_held hf)) (Nat.le_refl _)

/-! ### Conditions (R163, R172) -/

theorem SendsOnly.shaper {s t : State} (h : SendsOnly s t) : t.shaper = s.shaper := by
  obtain ⟨p, n, rfl, -⟩ := h
  rfl

theorem sendNotice_shaper (n : Notice) (s : State) : (sendNotice n s).shaper = s.shaper :=
  (handOver_sendsOnly ..).shaper

theorem sendAbortNotice_shaper (n : Notice) (i : CopyIndex) (s : State) :
    (sendAbortNotice n i s).shaper = s.shaper := by
  unfold sendAbortNotice
  split
  · exact sendNotice_shaper ..
  · split <;> rfl

theorem raiseTrap_shaper (t : Trap) (s : State) : (raiseTrap t s).shaper = s.shaper := by
  unfold raiseTrap
  split
  · exact sendNotice_shaper ..
  · split
    · exact sendNotice_shaper ..
    · split <;> rfl

theorem raiseAbort_shaper (c : Cond) (s : State) : (raiseAbort c s).shaper = s.shaper := by
  unfold raiseAbort
  split
  · exact sendAbortNotice_shaper ..
  · refine (sendAbortNotice_shaper ..).trans ?_
    split
    · rfl
    · exact (sendRecall_sendsOnly ..).shaper

/-- R163: a condition leaves the shaper as it is, or begins a withdrawal. -/
theorem raise_shaper (c : Cond) (s : State) :
    (raise c s).shaper = s.shaper ∨ ∃ d cause, raise c s = withdraw d cause s := by
  unfold raise
  split
  · split
    · exact .inr ⟨_, _, rfl⟩
    · split
      · exact .inr ⟨_, _, rfl⟩
      · left
        split
        · exact raiseTrap_shaper ..
        · exact (advanceChoices_sendsOnly ..).shaper.trans (raiseFault_sendsOnly ..).shaper
        all_goals exact (advanceChoices_sendsOnly ..).shaper.trans (raiseAbort_shaper ..)
  · exact .inl rfl

section
variable {s : State}

/-- R53: an abandoned shaping operation returns its reservation. -/
theorem abandonShaping_bounded (hb : s.shaper.Bounded) : (abandonShaping s).shaper.Bounded := by
  unfold abandonShaping
  split
  · exact hb
  next op hop =>
    have hrecords := hb.mapRecords
      (f := fun r => if r.start = op.start ∧ r.state = .shaping then { r with state := .waiting } else r)
      fun x => by split <;> rfl
    exact hrecords.of_le rfl (Nat.le_refl _) (Nat.add_le_add_right (Nat.zero_le _) _)

/-- R53, R72: an abandoned box build returns its reservation and releases its record. -/
theorem abandonBox_bounded (hb : s.shaper.Bounded) : (abandonBox s).shaper.Bounded :=
  hb.of_le rfl (Nat.add_le_add_left (glyphTotal_filter_le ..) _) (Nat.add_le_add_left (Nat.zero_le _) _)

theorem withdraw_bounded (c : Cond) (cause : Nat) (hb : s.shaper.Bounded) : (withdraw c cause s).shaper.Bounded :=
  abandonBox_bounded (abandonShaping_bounded hb)

theorem raise_bounded (c : Cond) (hb : s.shaper.Bounded) : (raise c s).shaper.Bounded := by
  rcases raise_shaper c s with h | ⟨d, cause, h⟩ <;> rw [h]
  · exact hb
  · exact withdraw_bounded d cause hb

theorem checkStoreFull_bounded (i : CopyIndex) (n : Nat) (hb : s.shaper.Bounded) :
    (checkStoreFull i n s).shaper.Bounded := by
  unfold checkStoreFull
  split
  · exact raise_bounded _ hb
  · exact hb

/-! ### Going on with an operation (R40, R52, R53) -/

/-- R52: a restarted operation keeps its reservation. -/
theorem restartShaping_bounded (hb : s.shaper.Bounded) : (restartShaping s).shaper.Bounded := by
  unfold restartShaping
  split
  · exact hb
  next op hop => exact hb.of_le rfl (Nat.le_refl _) (by simp [Shaper.reserved, hop, reservedBy])

theorem shapingViolation_bounded (start : CopyIndex) (slot : Nat) (item : CopyIndex) (hb : s.shaper.Bounded) :
    (shapingViolation start slot item s).shaper.Bounded := by
  have hraised : ∀ c, (raise c (s.withCartridge (s.cartridge.markUnusable slot))).shaper.Bounded :=
    fun c => raise_bounded c hb
  refine restartShaping_bounded ?_
  split
  · exact raise_bounded _ (hraised _)
  · exact hraised _

theorem resumeShaping_bounded (fuel : Nat) (hb : s.shaper.Bounded) : (resumeShaping fuel s).shaper.Bounded := by
  induction fuel generalizing s with
  | zero => exact hb
  | succ fuel ih =>
    unfold resumeShaping
    split
    · exact hb
    · exact ih (shapingViolation_bounded _ _ _ hb)
    · exact raise_bounded _ hb
    · exact hb
    · exact hb

theorem resumeBox_bounded (hb : s.shaper.Bounded) : (resumeBox s).shaper.Bounded := by
  unfold resumeBox
  split
  · exact hb
  next slot item _ _ =>
    have hraised : ∀ c, (raise c (s.withCartridge (s.cartridge.markUnusable slot))).shaper.Bounded :=
      fun c => raise_bounded c hb
    refine raise_bounded _ ?_
    split
    · exact resumeShaping_bounded _ (restartShaping_bounded (hraised _))
    · exact hraised _
  · exact raise_bounded _ hb
  · exact hb
  · exact hb

/-! ### Grants (R57 to R59, R71) -/

/-- R58: a shaping operation reserves what the free count covers. -/
theorem beginShaping_bounded {r : SegRecord} (hop : s.shaper.op = none) (hroom : r.charCount ≤ s.shaper.free)
    (hb : s.shaper.Bounded) : (beginShaping r s).shaper.Bounded :=
  resumeShaping_bounded _ (hb.reserve (g := (s.shapingEntered r).shaper) rfl (mapRecord_held fun _ => rfl)
    (by simp [State.shapingEntered, Shaper.mapRecord, Shaper.reserved, hop, reservedBy, Nat.add_comm]) hroom)

/-- R58, R71: so does a box build. -/
theorem beginBox_bounded {b : BoxRecord} (hop : s.shaper.boxOp = none) (hroom : b.charCount ≤ s.shaper.free)
    (hb : s.shaper.Bounded) : (beginBox b s).shaper.Bounded :=
  resumeBox_bounded (hb.reserve (g := (s.boxEntered b).shaper) rfl (mapBox_held (h := s.shaper) fun _ => rfl)
    (by simp [State.boxEntered, Shaper.mapBox, Shaper.reserved, hop, reservedBy]) hroom)

theorem grantShaping_bounded (hb : s.shaper.Bounded) : (grantShaping s).shaper.Bounded := by
  unfold grantShaping
  split
  · split
    next h =>
      obtain ⟨-, hop, hroom⟩ := h
      exact beginShaping_bounded hop hroom hb
    · exact hb
  · exact hb

theorem grantBox_bounded (hb : s.shaper.Bounded) : (grantBox s).shaper.Bounded := by
  unfold grantBox
  split
  · split
    next h =>
      obtain ⟨-, hop, hroom⟩ := h
      exact beginBox_bounded hop hroom hb
    · exact hb
  · exact hb

theorem grantStore_bounded (hb : s.shaper.Bounded) : (grantStore s).shaper.Bounded := by
  have hb' : (s.withChoices (s.choices + 1)).shaper.Bounded := hb
  unfold grantStore
  split
  · dsimp only
    split
    · exact grantShaping_bounded (grantBox_bounded hb')
    · exact grantBox_bounded (grantShaping_bounded hb')
  · exact grantBox_bounded (grantShaping_bounded hb)

theorem startShaping_bounded (hb : s.shaper.Bounded) : (startShaping s).shaper.Bounded := by
  unfold startShaping
  split
  next hc =>
    simp only [State.canStartShaping, Bool.and_eq_true, Option.isNone_iff_eq_none] at hc
    obtain ⟨⟨⟨-, hop⟩, -⟩, -⟩ := hc
    split
    · exact hb
    · split
      next hroom => exact beginShaping_bounded hop hroom hb
      · exact checkStoreFull_bounded _ _ (hb.mapRecord fun _ => rfl)
  · exact hb

theorem boxTaken_bounded (p : BoxPlan) (rest : List BoxPlan) (hb : s.shaper.Bounded) :
    (s.boxTaken p rest).shaper.Bounded :=
  hb.of_le rfl (boxTaken_held s p rest).le (Nat.le_refl _)

theorem startBox_bounded (hb : s.shaper.Bounded) : (startBox s).shaper.Bounded := by
  by_cases hc : s.canStartBox = true
  · cases hplan : s.shaper.plan with
    | nil => simpa [startBox, hc, hplan] using hb
    | cons p rest =>
      obtain ⟨-, hop⟩ := canStartBox_parts hc
      have htaken := boxTaken_bounded p rest hb
      rw [startBox_cons hc hplan]
      split
      next hroom => exact beginBox_bounded hop ((boxTaken_free s p rest).symm ▸ hroom) htaken
      · exact checkStoreFull_bounded _ _ htaken
  · rw [startBox, if_neg hc]
    exact hb

end

/-! ### The cutter (R33 to R36) -/

section
variable {h : Shaper}

theorem closeSegment_bounded (continues : Bool) (hb : h.Bounded) : (h.closeSegment continues).Bounded :=
  hb.mapRecords fun x => by split <;> rfl

theorem joinSegment_bounded (i : CopyIndex) (hb : h.Bounded) : (h.joinSegment i).Bounded :=
  hb.mapRecords fun x => by split <;> rfl

/-- R35: a new record holds nothing of the store. -/
theorem openSegment_bounded (p : Splitter) (i : CopyIndex) (claim level : Nat) (hb : h.Bounded) :
    (openSegment p h i claim level).1.Bounded := by
  unfold openSegment
  split
  · refine hb.of_le rfl ?_ (Nat.le_refl _)
    simp [Shaper.held, glyphTotal_insertRecord, SegRecord.opening]
  · exact hb

theorem cutItem_bounded (p : Splitter) (i : CopyIndex) (it : Item) (hb : h.Bounded) : (cutItem p h i it).1.Bounded := by
  unfold cutItem
  split
  · exact hb
  · split
    · exact hb
    · exact closeSegment_bounded _ hb
    · split
      · exact openSegment_bounded _ _ _ _ hb
      · split
        · split
          · exact joinSegment_bounded _ hb
          · exact openSegment_bounded _ _ _ _ (closeSegment_bounded _ hb)
        · exact openSegment_bounded _ _ _ _ (closeSegment_bounded _ hb)

end

section
variable {s : State}

theorem runCutter_bounded (fuel : Nat) (hb : s.shaper.Bounded) : (runCutter fuel s).shaper.Bounded := by
  induction fuel generalizing s with
  | zero => exact hb
  | succ fuel ih =>
    unfold runCutter
    split
    · split
      next it _ =>
        have hcut : (cutItem s.splitter s.shaper s.splitter.cutPoint it).1.Bounded := cutItem_bounded _ _ _ hb
        dsimp only
        split
        · exact ih hcut
        · exact hcut
      · split
        · exact ih hb
        · exact hb
    · exact hb

/-! ### What an event sets going -/

theorem pumpFrames_shaper (fuel : Nat) (s : State) : (pumpFrames fuel s).shaper = s.shaper := by
  induction fuel generalizing s with
  | zero => rfl
  | succ fuel ih =>
    unfold pumpFrames
    split
    · split
      · rfl
      · exact (ih _).trans (handOver_sendsOnly ..).shaper
    · rfl

theorem pump_shaper (s : State) : (pump s).shaper = s.shaper := pumpFrames_shaper ..

theorem startMeasure_shaper (s : State) : (startMeasure s).shaper = s.shaper := by
  unfold startMeasure
  split
  · rfl
  · split
    · rfl
    · split <;> rfl

theorem enterWaiting_bounded (w : WaitingFrame) (hb : s.shaper.Bounded) : (enterWaiting w s).shaper.Bounded := by
  unfold enterWaiting
  split
  · exact hb
  · dsimp only
    split
    · exact hb.mapRecord fun _ => rfl
    · exact hb.mapBox fun _ => rfl
    · rw [pump_shaper]
      exact hb
    all_goals exact hb

theorem settleFrames_bounded (fuel : Nat) (hb : s.shaper.Bounded) : (settleFrames fuel s).shaper.Bounded := by
  induction fuel generalizing s with
  | zero => exact hb
  | succ fuel ih =>
    unfold settleFrames
    split
    · exact ih (enterWaiting_bounded _ hb)
    · exact hb

theorem settle_bounded (hb : s.shaper.Bounded) : (settle s).shaper.Bounded := by
  have hslots : (settleSlots s).shaper.Bounded := settleFrames_bounded _ hb
  rw [settle, placeRemainder_none hslots.1, startNextRead, State.withCartridge_shaper, startMeasure_shaper]
  exact grantStore_bounded (runCutter_bounded _ hslots)

theorem finish_bounded (hb : s.shaper.Bounded) : (finish s).shaper.Bounded := by
  unfold finish
  split
  · rw [pump_shaper]
    exact settle_bounded hb
  · exact hb

/-! ### The commands -/

/-- A command that acts under a condition and then lets everything else go on. -/
theorem guarded_bounded {p : Prop} [Decidable p] {u : State} (hu : u.shaper.Bounded) (hb : s.shaper.Bounded) :
    (if p then finish u else s).shaper.Bounded := by
  split
  · exact finish_bounded hu
  · exact hb

/-- R58, R59: a command that grants a reservation keeps the shaper within the store. -/
theorem exec_grant_bounded {c : Instr} {t : State} (hc : c = .shapingStart ∨ c = .storeWaitGranted ∨ c = .boxBuildStart)
    (hb : s.shaper.Bounded) (h : exec c s = .next t) : t.shaper.Bounded := by
  rcases hc with rfl | rfl | rfl <;> obtain rfl := Host.Outcome.next.inj h
  · exact guarded_bounded (startShaping_bounded hb) hb
  · exact guarded_bounded (grantStore_bounded hb) hb
  · exact guarded_bounded (startBox_bounded hb) hb

end

/-- Settles O50: what each operation makes, and what each grant may reserve. -/
theorem glyphStoreBounds : Obligations.GlyphStoreBounds := by
  unfold Obligations.GlyphStoreBounds
  refine ⟨fun env inp ws res st => ?_, fun env start chars ws res st => ?_, fun gs o => firstPartGlyphs_length, ?_⟩
  · exact shapeSegment_length env inp _ _ _
  · exact shapeBox_length env start chars _ _ _
  · intro c s t hc hremainder hfits h
    exact (exec_grant_bounded hc ⟨hremainder, hfits⟩ h).2

end Sys2Proof.Machine
end

-- ==== proofs: measure arithmetic ====
section
/-! The measure arithmetic: shares carried by the remainder (R87), what a stretched JUSTIFY line (R89, R90) and a shrunk line
(R92, R93) take and give, and visual order (R140). -/

namespace Sys2Proof.Machine

/-! ### The carried remainder (R87) -/

section
variable {base r n : Nat}

/-- One receiver later the accumulator has carried `n` out at most once. -/
theorem carry_div (acc m : Nat) (hn : 0 < n) (h : n ≤ acc + r) :
    (acc + (m + 1) * r) / n = (acc + r - n + m * r) / n + 1 := by
  rw [← Nat.add_div_right _ hn]
  congr 1
  rw [Nat.succ_mul]
  omega

theorem sharesFrom_length (k acc : Nat) : (sharesFrom base r n k acc).length = k := by
  induction k generalizing acc with
  | zero => rfl
  | succ k ih => unfold sharesFrom; split <;> exact congrArg (· + 1) (ih _)

/-- Receiver `j` finds the accumulator at `acc + j * r` modulo `n`. -/
theorem sharesFrom_getElem? {k acc : Nat} (ha : acc < n) (hr : r < n) {j : Nat} (hj : j < k) :
    (sharesFrom base r n k acc)[j]? = some (base + if n ≤ (acc + j * r) % n + r then 1 else 0) := by
  induction k generalizing acc j with
  | zero => omega
  | succ k ih =>
    unfold sharesFrom
    cases j with
    | zero => split <;> simp_all [Nat.mod_eq_of_lt ha]
    | succ j =>
      split
      next h =>
        have hcarry : (acc + r - n + j * r) % n = (acc + (j + 1) * r) % n := by
          rw [← Nat.add_mod_right, Nat.succ_mul]
          congr 1
          omega
        rw [List.getElem?_cons_succ, ih (by omega) (by omega), hcarry]
      next h =>
        rw [List.getElem?_cons_succ, ih (by omega) (by omega), Nat.succ_mul, Nat.add_assoc, Nat.add_comm r]

/-- The extra steps are those that the accumulator carries out. -/
theorem sharesFrom_sum (k : Nat) {acc : Nat} (ha : acc < n) (hr : r < n) :
    (sharesFrom base r n k acc).sum = k * base + (acc + k * r) / n := by
  induction k generalizing acc with
  | zero => simp [sharesFrom, Nat.div_eq_of_lt ha]
  | succ k ih =>
    unfold sharesFrom
    split
    next h =>
      rw [List.sum_cons, ih (by omega), carry_div acc k (by omega) h, Nat.succ_mul]
      omega
    next h =>
      rw [List.sum_cons, ih (by omega), Nat.succ_mul, Nat.succ_mul, Nat.add_assoc acc r, Nat.add_comm r]
      omega

theorem sharesFrom_countP (k : Nat) {acc : Nat} (ha : acc < n) (hr : r < n) :
    (sharesFrom base r n k acc).countP (fun x => x == base + 1) = (acc + k * r) / n := by
  induction k generalizing acc with
  | zero => simp [sharesFrom, Nat.div_eq_of_lt ha]
  | succ k ih =>
    unfold sharesFrom
    split
    next h => rw [List.countP_cons_of_pos (by simp), ih (by omega), carry_div acc k (by omega) h]
    next h =>
      rw [List.countP_cons_of_neg (by simp), ih (by omega), Nat.succ_mul, Nat.add_assoc acc r, Nat.add_comm r]

end

theorem spreadShares_length (a n : Nat) : (spreadShares a n).length = n := sharesFrom_length ..

/-- R87: the shares sum to the amount. -/
theorem spreadShares_sum (a : Nat) {n : Nat} (hn : 0 < n) : (spreadShares a n).sum = a := by
  rw [spreadShares, sharesFrom_sum n hn (Nat.mod_lt a hn), Nat.zero_add, Nat.mul_div_cancel_left _ hn, Nat.div_add_mod]

/-- Settles O22: the shares are those of an accumulator that starts at 0. -/
theorem sharesCarryRemainder : Obligations.SharesCarryRemainder := by
  unfold Obligations.SharesCarryRemainder
  intro a n hn
  have hr := Nat.mod_lt a hn
  refine ⟨spreadShares_length a n, fun j hj => ?_, spreadShares_sum a hn, ?_⟩
  · rw [spreadShares, sharesFrom_getElem? hn hr hj, Nat.zero_add]
  · rw [spreadShares, sharesFrom_countP n hn hr, Nat.zero_add, Nat.mul_div_cancel_left _ hn]

/-! ### A stretched line (R89, R90) -/

theorem sum_take_add (l : List Nat) (m n : Nat) : (l.take (m + n)).sum = (l.take m).sum + ((l.drop m).take n).sum := by
  rw [List.take_add, List.sum_append]

theorem points_of_isSpace {x : TallyItem} (h : x.isSpace = true) : x.points = 0 := by
  cases x with
  | segment | thin => cases h
  | space => rfl

/-- R89, R90: a stretched line takes its natural width, the shares dealt to its points and those of its spaces. -/
theorem stretchWidths_sum (items : List TallyItem) (sh sps : List Nat) :
    (stretchWidths items (dealShares items sh) sps).sum =
      naturalWidth items + (sh.take (pointCount items)).sum + (sps.take (spaceCount items)).sum := by
  induction items generalizing sh sps with
  | nil => simp [stretchWidths, naturalWidth, pointCount, spaceCount]
  | cons x rest ih =>
    have hnatural : naturalWidth (x :: rest) = x.natural + naturalWidth rest := rfl
    have hpoints : pointCount (x :: rest) = x.points + pointCount rest := rfl
    rw [hnatural, hpoints, sum_take_add]
    unfold stretchWidths dealShares
    split
    next hx =>
      have hspaces : spaceCount (x :: rest) = 1 + spaceCount rest := by simp [spaceCount, hx, Nat.add_comm]
      have hhead : sps.headD 0 = (sps.take 1).sum := by cases sps <;> simp
      rw [List.sum_cons, List.tail_cons, ih, hspaces, sum_take_add, points_of_isSpace hx, hhead, List.drop_one]
      simp only [List.take_zero, List.sum_nil]
      omega
    next hx =>
      have hspaces : spaceCount (x :: rest) = spaceCount rest := by simp [spaceCount, hx]
      rw [List.sum_cons, List.tail_cons, List.headD_cons, ih, hspaces]
      omega

/-- R86: with no elongation point there is no elongation capacity. -/
theorem elongCapacity_noPoints {items : List TallyItem} (c : Nat) (h : pointCount items = 0) :
    elongCapacity c items = 0 := by
  unfold elongCapacity
  split <;> simp [h]

/-- R87, R89: an amount that is 0 where there is no point is dealt to the points in full. -/
theorem elongShares_sum {t n : Nat} (h : n = 0 → t = 0) :
    ((if t = 0 then [] else spreadShares t n : List Nat).take n).sum = t := by
  split
  next ht => simp [ht]
  next ht => rw [List.take_of_length_le (spreadShares_length ..).le, spreadShares_sum t (Nat.pos_of_ne_zero (ht ∘ h))]

/-- Settles O23: the spaces take what the elongation leaves of the slack. -/
theorem justifyFillsMeasure : Obligations.JustifyFillsMeasure := by
  unfold Obligations.JustifyFillsMeasure
  intro c p items hfits hspaces
  unfold justifySetting
  extract_lets natural s t shares unspaced widths
  rw [if_neg (Nat.ne_of_gt hspaces)]
  have hle : t ≤ s := by
    unfold t
    split
    · exact Nat.min_le_left ..
    · exact Nat.zero_le _
  have hnone : pointCount items = 0 → t = 0 := fun h => by simp [t, elongCapacity_noPoints c h]
  have htaken := List.take_of_length_le (spreadShares_length (s - t) (spaceCount items)).le
  have hwidths : widths.sum = p.measure := by
    rw [stretchWidths_sum, elongShares_sum hnone, htaken, spreadShares_sum _ hspaces]
    omega
  exact ⟨hwidths, hwidths, rfl, rfl, rfl⟩

/-! ### A shrunk line (R92, R93) -/

/-- Lists of which one stays below the other and sums to no less are equal. -/
theorem eq_of_forall₂_le {l m : List Nat} (h : List.Forall₂ (· ≤ ·) l m) (hsum : m.sum ≤ l.sum) : l = m := by
  induction h with
  | nil => rfl
  | cons hab hrest ih =>
    have hle := hrest.sum_le_sum
    simp only [List.sum_cons] at hsum
    rw [ih (by omega), Nat.le_antisymm hab (by omega)]

/-- R92, first pass: no space gives more than its capacity, and what is not given is the excess. -/
theorem shrinkFirst_spec {caps shares : List Nat} (h : shares.length = caps.length) (excess : Nat) :
    List.Forall₂ (· ≤ ·) (shrinkFirst caps shares excess).1 caps ∧
      (shrinkFirst caps shares excess).1.sum + (shrinkFirst caps shares excess).2 = shares.sum + excess := by
  induction caps generalizing shares excess with
  | nil => simp [shrinkFirst, List.length_eq_zero_iff.mp h]
  | cons cap caps ih =>
    obtain ⟨share, rest, rfl⟩ := List.exists_cons_of_length_eq_add_one h
    obtain ⟨hle, hsum⟩ := ih (Nat.succ.inj h) (share + excess - min (share + excess) cap)
    refine ⟨.cons (Nat.min_le_right ..) hle, ?_⟩
    simp only [shrinkFirst, List.sum_cons]
    omega

/-- R92, second pass: the excess is given as far as the capacities go. -/
theorem shrinkSecond_spec {caps given : List Nat} (h : List.Forall₂ (· ≤ ·) given caps) (excess : Nat) :
    List.Forall₂ (· ≤ ·) (shrinkSecond caps given excess).1 caps ∧
      (shrinkSecond caps given excess).1.sum = min (given.sum + excess) caps.sum := by
  induction h generalizing excess with
  | nil => simp [shrinkSecond]
  | @cons g cap given caps hg hrest ih =>
    obtain ⟨hle, hsum⟩ := ih (excess - min excess (cap - g))
    have hrestle := hrest.sum_le_sum
    refine ⟨.cons (by omega) hle, ?_⟩
    simp only [shrinkSecond, List.sum_cons, hsum]
    omega

/-- R92: within their capacities the spaces give the need, or all they have. -/
theorem shrinkGives_spec (caps : List Nat) (need : Nat) :
    List.Forall₂ (· ≤ ·) (shrinkGives caps need) caps ∧ (shrinkGives caps need).sum = min need caps.sum := by
  rcases Nat.eq_zero_or_pos caps.length with hnone | hsome
  · obtain rfl := List.length_eq_zero_iff.mp hnone
    simp [shrinkGives, shrinkFirst, shrinkSecond]
  · obtain ⟨hle, hfirst⟩ := shrinkFirst_spec (spreadShares_length need caps.length) 0
    obtain ⟨hgives, hsecond⟩ := shrinkSecond_spec hle (shrinkFirst caps (spreadShares need caps.length) 0).2
    rw [hfirst, spreadShares_sum need hsome] at hsecond
    exact ⟨hgives, hsecond⟩

theorem shrinkGives_eq_caps {caps : List Nat} {need : Nat} (h : caps.sum ≤ need) : shrinkGives caps need = caps := by
  obtain ⟨hle, hsum⟩ := shrinkGives_spec caps need
  exact eq_of_forall₂_le hle (by omega)

theorem shrink_le_natural (x : TallyItem) : x.shrink ≤ x.natural := by
  cases x with
  | segment | thin => exact Nat.zero_le _
  | space => exact Nat.sub_le ..

theorem shrink_of_not_space {x : TallyItem} (h : ¬ x.isSpace = true) : x.shrink = 0 := by
  cases x with
  | segment | thin => rfl
  | space => exact absurd rfl h

theorem shrinkCaps_cons_space {x : TallyItem} (h : x.isSpace = true) (items : List TallyItem) :
    shrinkCaps (x :: items) = x.shrink :: shrinkCaps items := by simp [shrinkCaps, h]

theorem shrinkCaps_cons_other {x : TallyItem} (h : ¬ x.isSpace = true) (items : List TallyItem) :
    shrinkCaps (x :: items) = shrinkCaps items := by simp [shrinkCaps, h]

/-- R85: spaces alone have shrink capacity. -/
theorem shrinkCaps_sum (items : List TallyItem) : (shrinkCaps items).sum = (items.map TallyItem.shrink).sum := by
  induction items with
  | nil => rfl
  | cons x rest ih =>
    by_cases hx : x.isSpace = true
    · simp [shrinkCaps_cons_space hx, ih]
    · simp [shrinkCaps_cons_other hx, shrink_of_not_space hx, ih]

/-- R92: what the spaces give of their capacities comes off the items' natural widths, and off nothing else. -/
theorem shrinkWidths_spec {items : List TallyItem} {gs : List Nat} (h : List.Forall₂ (· ≤ ·) gs (shrinkCaps items)) :
    List.Forall₂ (fun x w => w ≤ x.natural ∧ x.natural - w ≤ x.shrink) items (shrinkWidths items gs) ∧
      (shrinkWidths items gs).sum + gs.sum = naturalWidth items := by
  induction items generalizing gs with
  | nil =>
    obtain rfl := List.forall₂_nil_right_iff.mp h
    exact ⟨.nil, rfl⟩
  | cons x rest ih =>
    have hnatural : naturalWidth (x :: rest) = x.natural + naturalWidth rest := rfl
    unfold shrinkWidths
    split
    next hx =>
      rw [shrinkCaps_cons_space hx] at h
      obtain ⟨g, gs, hg, hrest, rfl⟩ := List.forall₂_cons_right_iff.mp h
      obtain ⟨hitems, hsum⟩ := ih hrest
      have hcap := shrink_le_natural x
      refine ⟨.cons ⟨Nat.sub_le .., by simp only [List.headD_cons]; omega⟩ hitems, ?_⟩
      simp only [List.sum_cons, List.headD_cons, List.tail_cons]
      omega
    next hx =>
      rw [shrinkCaps_cons_other hx] at h
      obtain ⟨hitems, hsum⟩ := ih h
      exact ⟨.cons ⟨Nat.le_refl _, by omega⟩ hitems, by rw [List.sum_cons]; omega⟩

/-- R93: with its capacities given in full, every space stands at its minimum. -/
theorem shrinkWidths_caps (items : List TallyItem) :
    shrinkWidths items (shrinkCaps items) = items.map fun x => x.natural - x.shrink := by
  induction items with
  | nil => rfl
  | cons x rest ih =>
    unfold shrinkWidths
    split
    next hx => simp [shrinkCaps_cons_space hx, ih]
    next hx => simp [shrinkCaps_cons_other hx, shrink_of_not_space hx, ih]

/-- R92, R93: a shrunk line's items, its set width and its overhang. -/
theorem shrunkSetting_spec (p : LineParams) (quad : QuadMode) (items : List TallyItem) :
    List.Forall₂ (fun x w => w ≤ x.natural ∧ x.natural - w ≤ x.shrink) items (shrunkSetting p quad items).widths ∧
      (shrunkSetting p quad items).setWidth + min (naturalWidth items - p.measure) (items.map TallyItem.shrink).sum =
        naturalWidth items ∧
      (shrunkSetting p quad items).overhang = (shrunkSetting p quad items).setWidth - p.measure := by
  obtain ⟨hgives, hsum⟩ := shrinkGives_spec (shrinkCaps items) (naturalWidth items - p.measure)
  obtain ⟨hitems, htotal⟩ := shrinkWidths_spec hgives
  rw [hsum, shrinkCaps_sum] at htotal
  exact ⟨hitems, htotal, rfl⟩

theorem shrunkSetting_minimum {p : LineParams} {items : List TallyItem} (quad : QuadMode)
    (h : (items.map TallyItem.shrink).sum ≤ naturalWidth items - p.measure) :
    (shrunkSetting p quad items).widths = items.map fun x => x.natural - x.shrink := by
  rw [← shrinkCaps_sum] at h
  exact (congrArg (shrinkWidths items) (shrinkGives_eq_caps h)).trans (shrinkWidths_caps items)

/-! ### Visual order (R140) -/

section
variable {α : Type} (level : α → Nat)

theorem reverseRuns_perm (k : Nat) (run items : List α) : (reverseRuns level k run items).Perm (run ++ items) := by
  induction items generalizing run with
  | nil => simp [reverseRuns]
  | cons x rest ih =>
    unfold reverseRuns
    split
    · exact (ih _).trans List.perm_middle.symm
    · exact ((ih []).cons x).append_left run

/-- R140: no pass loses an item. -/
theorem visualOrder_perm (items : List α) : (visualOrder level items).Perm items := by
  unfold visualOrder
  generalize passLevels (items.map level) = passes
  have hfold : ∀ l : List α, (passes.foldl (fun l k => reverseRuns level k [] l) l).Perm l := by
    induction passes with
    | nil => exact .refl
    | cons k passes ih => exact fun l => (ih _).trans (reverseRuns_perm level k [] l)
  exact hfold items

/-- R140: items all at the pass's level or above are one run. -/
theorem reverseRuns_all {k : Nat} {items : List α} (h : ∀ x ∈ items, k ≤ level x) (run : List α) :
    reverseRuns level k run items = items.reverse ++ run := by
  induction items generalizing run with
  | nil => rfl
  | cons x rest ih =>
    obtain ⟨hx, hrest⟩ := List.forall_mem_cons.mp h
    rw [reverseRuns, if_pos hx, ih hrest, List.reverse_cons, List.append_assoc]
    rfl

/-- R140: without an odd level there is no pass. -/
theorem passLevels_even {levels : List Nat} (h : ∀ l ∈ levels, l % 2 = 0) : passLevels levels = [] := by
  have hodd : levels.filter (fun l => l % 2 == 1) = [] := List.filter_eq_nil_iff.mpr fun l hl => by simp [h l hl]
  simp [passLevels, hodd]

theorem foldl_replicate_fixed {f : Nat → Nat → Nat} {k : Nat} (h : f k k = k) (n : Nat) :
    (List.replicate n k).foldl f k = k := by
  induction n with
  | zero => rfl
  | succ n ih => rw [List.replicate_succ, List.foldl_cons, h, ih]

/-- R140: one odd level alone is the one pass. -/
theorem passLevels_replicate {k : Nat} (hk : k % 2 = 1) (n : Nat) : passLevels (List.replicate (n + 1) k) = [k] := by
  have hodd : (List.replicate (n + 1) k).filter (fun l => l % 2 == 1) = k :: List.replicate n k := by
    rw [List.filter_replicate_of_pos (by simp [hk])]
    rfl
  have hlow : (List.replicate n k).foldl min k = k := foldl_replicate_fixed (Nat.min_self k) n
  have htop : (List.replicate (n + 1) k).foldl max 0 = k := by
    rw [List.replicate_succ, List.foldl_cons, Nat.zero_max, foldl_replicate_fixed (Nat.max_self k)]
  have hbelow : (List.range k).filter (fun j => k ≤ j) = [] :=
    List.filter_eq_nil_iff.mpr fun j hj => by simpa using hj
  simp [passLevels, hodd, hlow, htop, List.range_succ, hbelow]

theorem visualOrder_even {items : List α} (h : ∀ x ∈ items, level x % 2 = 0) : visualOrder level items = items := by
  rw [visualOrder, passLevels_even (List.forall_mem_map.mpr h)]
  rfl

theorem visualOrder_odd {items : List α} {k : Nat} (hk : k % 2 = 1) (h : ∀ x ∈ items, level x = k) :
    visualOrder level items = items.reverse := by
  cases items with
  | nil => rfl
  | cons x rest =>
    have hlevels : (x :: rest).map level = List.replicate (rest.length + 1) k := List.map_eq_replicate_iff.mpr h
    rw [visualOrder, hlevels, passLevels_replicate hk, List.foldl_cons, List.foldl_nil,
      reverseRuns_all level fun y hy => (h y hy).ge, List.append_nil]

end

/-- Settles O24: the two passes give as much as the capacities allow, and every pass of visual order is a permutation. -/
theorem shrinkAndVisualOrder : Obligations.ShrinkAndVisualOrder := by
  unfold Obligations.ShrinkAndVisualOrder
  refine ⟨fun p quad items hover => ?_, fun items => ⟨visualOrder_perm _ items, visualOrder_even _,
    fun k hk => visualOrder_odd _ hk⟩⟩
  obtain ⟨hitems, htotal, hoverhang⟩ := shrunkSetting_spec p quad items
  refine ⟨hitems.length_eq.symm, fun i x w hx hw => ?_, fun hcovered => ?_, fun hshort => ?_⟩
  · obtain ⟨hix, rfl⟩ := List.getElem?_eq_some_iff.mp hx
    obtain ⟨hiw, hw'⟩ := List.getElem?_eq_some_iff.mp hw
    obtain ⟨hle, hgiven⟩ := hitems.get hix hiw
    rw [List.get_eq_getElem, List.get_eq_getElem, hw'] at hle hgiven
    refine ⟨hle, hgiven, fun hshort => ?_⟩
    rw [shrunkSetting_minimum quad hshort, List.getElem?_map, hx] at hw
    exact (Option.some.inj hw).symm
  · omega
  · omega

end Sys2Proof.Machine
end

-- ==== proofs: a waiting decision ====
section
/-! A waiting decision is made (R117, R126, R127), and what follows it leaves the decided record as it was decided. -/

namespace Sys2Proof.Machine

/-! ### A decided record among the line records -/

/-- The record of number `n` is DECIDED, with end index `e` and decision `x`. -/
def DecidedAs (n : LineNumber) (e : CopyIndex) (x : Decision) (l : List LineRecord) : Prop :=
  ∃ d, l.find? (fun r => r.number == n) = some d ∧ d.state = .decided ∧ d.endIdx = some e ∧ d.decision = some x

/-- A rewritten element that was the first of its kind is the first of its kind. -/
theorem find?_changeFirst_same {α : Type} {p q : α → Bool} {f : α → α} {l : List α} {x : α} (hp : l.find? p = some x)
    (hq : l.find? q = some x) (hf : q (f x) = true) : (changeFirst p f l).find? q = some (f x) := by
  induction l with
  | nil => cases hp
  | cons y l ih =>
    by_cases hy : p y = true
    · obtain rfl : y = x := by simpa [hy] using hp
      simp [changeFirst, hy, hf]
    · have hqy : q y = false := by
        by_contra hqy
        obtain rfl : y = x := by simpa [hqy] using hq
        exact hy (List.find?_some hp)
      simp only [changeFirst, if_neg hy]
      rw [List.find?_cons_of_neg (by simp [hqy])] at hq ⊢
      rw [List.find?_cons_of_neg hy] at hp
      exact ih hp hq

/-- A rewritten element of another kind does not become the first of one, nor hide it. -/
theorem find?_changeFirst_other {α : Type} {p q : α → Bool} {f : α → α} {l : List α} {x y : α} (hp : l.find? p = some x)
    (hq : l.find? q = some y) (hy : ¬ p y = true) (hf : q (f x) = q x) : (changeFirst p f l).find? q = some y := by
  induction l with
  | nil => cases hp
  | cons z l ih =>
    by_cases hz : p z = true
    · obtain rfl : z = x := by simpa [hz] using hp
      have hqz : q z = false := by
        by_contra hqz
        obtain rfl : z = y := by simpa [hqz] using hq
        exact hy hz
      rw [List.find?_cons_of_neg (by simp [hqz])] at hq
      simp [changeFirst, hz, hf, hqz, hq]
    · rw [List.find?_cons_of_neg hz] at hp
      simp only [changeFirst, if_neg hz]
      by_cases hqz : q z = true
      · rw [List.find?_cons_of_pos hqz] at hq ⊢
        exact hq
      · rw [List.find?_cons_of_neg hqz] at hq ⊢
        exact ih hp hq

section
variable {n : LineNumber} {e : CopyIndex} {x : Decision}

theorem DecidedAs.of_eq {l m : List LineRecord} (h : DecidedAs n e x l) (hl : m = l) : DecidedAs n e x m := hl ▸ h

/-- R116: a line that opens stands behind the records there are. -/
theorem DecidedAs.append {l : List LineRecord} (h : DecidedAs n e x l) (m : List LineRecord) :
    DecidedAs n e x (l ++ m) := by
  obtain ⟨d, hd, hrest⟩ := h
  exact ⟨d, by rw [List.find?_append, hd, Option.some_or], hrest⟩

/-- Records rewritten in what a decision does not settle. -/
theorem DecidedAs.mapLine {t : TallyUnit} (h : DecidedAs n e x t.lines) (k : LineNumber) {f : LineRecord → LineRecord}
    (hf : ∀ r, (f r).number = r.number ∧ (f r).state = r.state ∧ (f r).endIdx = r.endIdx ∧ (f r).decision = r.decision) :
    DecidedAs n e x (t.mapLine k f).lines := by
  obtain ⟨d, hd, hstate, hend, hdecision⟩ := h
  have hnumber : ((fun r : LineRecord => r.number == n) ∘ fun r => if r.number == k then f r else r) =
      fun r => r.number == n := by
    funext r
    dsimp only [Function.comp]
    split
    · rw [(hf r).1]
    · rfl
  refine ⟨if d.number == k then f d else d, ?_, ?_⟩
  · rw [TallyUnit.mapLine, List.find?_map, hnumber, hd]
    rfl
  · obtain ⟨-, hfstate, hfend, hfdecision⟩ := hf d
    split
    · exact ⟨hfstate.trans hstate, hfend.trans hend, hfdecision.trans hdecision⟩
    · exact ⟨hstate, hend, hdecision⟩

/-- The open line's record gives way to one of its number: the decided record is another. -/
theorem DecidedAs.withOpen {t : TallyUnit} {r c : LineRecord} (h : DecidedAs n e x t.lines) (ho : t.openLine? = some r)
    (hc : c.number = r.number) : DecidedAs n e x (t.withOpen c).lines := by
  obtain ⟨d, hd, hstate, hrest⟩ := h
  exact ⟨d, find?_changeFirst_other ho hd (by simp [hstate]) (by rw [hc]), hstate, hrest⟩

theorem unfence_lines (t : TallyUnit) (k : LineNumber) : (t.unfence k).lines = t.lines := by
  unfold TallyUnit.unfence
  split <;> rfl

/-- R126, R127: what a decision does once the record is rewritten leaves every decided record as it was decided. -/
theorem decideLine_keepsDecided {r : LineRecord} {p : LineParams} {s : State}
    (h : DecidedAs n e x (s.tally.withOpen (r.decidedAt (r.chooseBreak p.measure)
      (lineSetting s.measure.multiple p (r.chooseBreak p.measure).last (r.keptItems (r.chooseBreak p.measure))))).lines) :
    DecidedAs n e x (decideLine r p s).tally.lines := by
  unfold decideLine
  extract_lets b st d s1 s2 lost s3 s4 s5 s6 s7
  have h1 : DecidedAs n e x s1.tally.lines := h.of_eq (unfence_lines ..)
  have h3 : Settles s1 s3 := (cutAtBreak_settles ..).trans (handOver_settles ..)
  have hplace : DecidedAs n e x (placeDecided d st s3).tally.lines :=
    (h1.of_eq h3.lines).mapLine d.number fun _ => ⟨rfl, rfl, rfl, rfl⟩
  have h4 : DecidedAs n e x s4.tally.lines :=
    ((hplace.of_eq (pump_settles _).lines).append _).of_eq (openLine_lines ..)
  have h7 : Settles s4 s7 := (raiseOverset_settles ..).trans <| (raiseLoose_settles ..).trans <|
    (Settles.foldl (fun _ _ => raise_settles ..) _ _).trans (Settles.foldl (fun _ _ => compareVerdict_settles ..) _ _)
  have hlast := h7.trans (Settles.ite (p := s7.shaper.holdsIn d = true) (checkWaitingStore_settles s7) (.refl s7))
  exact h4.of_eq hlast.lines

theorem decideIfDue_keepsDecided {s : State} (h : DecidedAs n e x s.tally.lines) :
    DecidedAs n e x (decideIfDue s).tally.lines := by
  unfold decideIfDue
  split
  next r ho =>
    split
    · split
      · exact decideLine_keepsDecided (h.withOpen ho rfl)
      · exact h
    · exact h
  · exact h

theorem checkGapMark_keepsDecided {s : State} (h : DecidedAs n e x s.tally.lines) :
    DecidedAs n e x (checkGapMark s).tally.lines := by
  unfold checkGapMark
  split
  next r _ =>
    split
    · have hmark := h.mapLine r.number (f := fun x => { x with gapChecked := true }) fun _ => ⟨rfl, rfl, rfl, rfl⟩
      exact hmark.of_eq (Settles.foldl (fun _ _ => raise_settles ..) _ _).lines
    · exact h
  · exact h

theorem runScan_keepsDecided {s : State} (h : DecidedAs n e x s.tally.lines) : DecidedAs n e x (runScan s).tally.lines := by
  unfold runScan
  split
  next r ho =>
    have hscan := h.withOpen ho (scanned_number s r)
    dsimp only
    split
    · exact hscan.of_eq (raise_settles ..).lines
    · exact hscan
  · exact h

/-- R117: a round of the tally unit leaves every decided record as it was decided. -/
theorem tallyRound_keepsDecided {s : State} (h : DecidedAs n e x s.tally.lines) : DecidedAs n e x (tallyRound s).tally.lines :=
  decideIfDue_keepsDecided (runScan_keepsDecided (checkGapMark_keepsDecided h))

/-- R117: what the first round has decided, the following rounds leave. -/
theorem settleTally_keepsDecided {s : State} (hw : s.working = true) (h : DecidedAs n e x (tallyRound s).tally.lines) :
    DecidedAs n e x (settleTally s).tally.lines := by
  have rounds := tallyRound_keepsDecided (tallyRound_keepsDecided h)
  unfold settleTally
  rw [if_pos hw]
  dsimp only
  split
  · exact rounds.of_eq (timeCoverage_settles ..).lines
  · exact rounds

end

/-! ### The decision -/

/-- R117, R125: a round in which the open line has nothing left to scan decides it. -/
theorem tallyRound_decides {s : State} {r : LineRecord} {p : LineParams} (hw : s.working = true)
    (ho : s.tally.openLine? = some r) (hp : r.params = some p) (hd : r.decidable = true)
    (hhand : s.tally.inHand.length < 2) (hgap : checkGapMark s = s) (hscan : runScan s = s) :
    tallyRound s = decideLine r p s := by
  have hmay : s.tally.mayDecide = true := decide_eq_true hhand
  simp [tallyRound, hgap, hscan, decideIfDue, ho, hp, hw, hd, hmay]

/-- Settles O38: the first round decides the line, and nothing that follows rewrites its decision. -/
theorem deferredDecisionMade : Obligations.DeferredDecisionMade := by
  unfold Obligations.DeferredDecisionMade
  intro s r p hw ho hline hp hd hhand hgap hscan
  let b := r.chooseBreak p.measure
  let st := lineSetting s.measure.multiple p b.last (r.keptItems b)
  have hdecided : DecidedAs r.number b.endIdx ⟨b.kind, st⟩ (s.tally.withOpen (r.decidedAt b st)).lines :=
    ⟨r.decidedAt b st, find?_changeFirst_same ho hline (by simp [LineRecord.decidedAt]), rfl, rfl, rfl⟩
  have hround : DecidedAs r.number b.endIdx ⟨b.kind, st⟩ (tallyRound s).tally.lines := by
    rw [tallyRound_decides hw ho hp hd hhand hgap hscan]
    exact decideLine_keepsDecided hdecided
  obtain ⟨d, hfind, hstate, hend, hdecision⟩ := (settleTally_keepsDecided hw hround).of_eq (finish_settles _).lines
  exact ⟨finish (settleTally s), d, ⟨b.kind, st⟩, congrArg Host.Outcome.next (if_pos hw), hfind, hstate, hend, hdecision,
    rfl, rfl⟩

end Sys2Proof.Machine
end

-- ==== proofs: what every operation keeps of the bus port ====
section
/-! The bus port's bounds (R97, R101 to R103, R113) and the queue of commands: what the port's own operations and the shared
operations keep of them. -/

namespace Sys2Proof.Machine

/-! ### The transmit queue (R103, R106) -/

/-- R103, R106: the slots, the order and the one frame in flight of a transmit queue. -/
structure TxSound (l : List TxFrame) : Prop where
  ordinary : l.countP (fun t => !t.urgent) ≤ ordinarySlots
  urgent   : l.countP (fun t => t.urgent) ≤ urgentSlots
  order    : l.Pairwise (fun a b => a.frame.word.toNat ≤ b.frame.word.toNat)
  flight   : l.countP (fun t => t.inFlight) ≤ 1

theorem txSound_nil : TxSound [] := ⟨Nat.zero_le _, Nat.zero_le _, .nil, Nat.zero_le _⟩

theorem countP_filterMap_le {f : TxFrame → Option TxFrame} {p : TxFrame → Bool}
    (h : ∀ t u, f t = some u → p u = true → p t = true) (l : List TxFrame) : (l.filterMap f).countP p ≤ l.countP p := by
  rw [List.countP_filterMap]
  refine List.countP_mono_left fun t _ ht => ?_
  cases hf : f t with
  | none => simp [hf] at ht
  | some u => exact h t u hf (by simpa [hf] using ht)

/-- Frames may leave the queue, and those that stay may change their marks, but for one that comes into flight. -/
theorem TxSound.filterMap {l : List TxFrame} (h : TxSound l) {f : TxFrame → Option TxFrame}
    (hf : ∀ t u, f t = some u → u.frame = t.frame ∧ u.urgent = t.urgent ∧ (u.inFlight = true → t.inFlight = true)) :
    TxSound (l.filterMap f) where
  ordinary := (countP_filterMap_le (fun t u e => by simp [(hf t u e).2.1]) l).trans h.ordinary
  urgent := (countP_filterMap_le (fun t u e => by simp [(hf t u e).2.1]) l).trans h.urgent
  order := h.order.filterMap f fun t t' hle u hu u' hu' => by rwa [(hf t u hu).1, (hf t' u' hu').1]
  flight := (countP_filterMap_le (fun t u e => (hf t u e).2.2) l).trans h.flight

theorem TxSound.map {l : List TxFrame} (h : TxSound l) {f : TxFrame → TxFrame}
    (hf : ∀ t, (f t).frame = t.frame ∧ (f t).urgent = t.urgent ∧ ((f t).inFlight = true → t.inFlight = true)) :
    TxSound (l.map f) := by
  rw [← List.filterMap_eq_map]
  refine h.filterMap fun t u e => ?_
  cases e
  exact hf t

theorem TxSound.filter {l : List TxFrame} (h : TxSound l) (p : TxFrame → Bool) : TxSound (l.filter p) := by
  rw [← List.filterMap_eq_filter]
  refine h.filterMap fun t u e => ?_
  obtain ⟨rfl, -⟩ := Option.guard_eq_some_iff.mp e
  exact ⟨rfl, rfl, id⟩

/-- R103: a frame goes behind those of no higher word. -/
theorem txInsert_pairwise (t : TxFrame) {l : List TxFrame}
    (h : l.Pairwise (fun a b => a.frame.word.toNat ≤ b.frame.word.toNat)) :
    (txInsert t l).Pairwise (fun a b => a.frame.word.toNat ≤ b.frame.word.toNat) := by
  induction l with
  | nil => exact List.pairwise_singleton ..
  | cons x l ih =>
    obtain ⟨hx, hl⟩ := List.pairwise_cons.mp h
    unfold txInsert
    split
    next hlt =>
      exact List.pairwise_cons.mpr ⟨List.forall_mem_cons.mpr ⟨hlt.le, fun y hy => hlt.le.trans (hx y hy)⟩, h⟩
    next hle =>
      refine List.pairwise_cons.mpr ⟨fun y hy => ?_, ih hl⟩
      rcases List.mem_cons.mp ((txInsert_perm t l).mem_iff.mp hy) with rfl | hy
      · exact Nat.le_of_not_lt hle
      · exact hx y hy

/-- R103: a frame enters a queue that has a slot of its kind free. -/
theorem TxSound.insert {l : List TxFrame} (h : TxSound l) {f : Frame} {u m : Bool}
    (hroom : if u then l.countP (fun t => t.urgent) < urgentSlots else l.countP (fun t => !t.urgent) < ordinarySlots) :
    TxSound (txInsert ⟨f, u, 0, m, false, false⟩ l) where
  ordinary := by
    have := h.ordinary
    rw [(txInsert_perm _ _).countP_eq]
    cases u <;> simp_all
  urgent := by
    have := h.urgent
    rw [(txInsert_perm _ _).countP_eq]
    cases u <;> simp_all
  order := txInsert_pairwise _ h.order
  flight := by
    rw [(txInsert_perm _ _).countP_eq]
    simpa [List.countP_cons] using h.flight

/-- R107: a frame removed from the queue, or a removal noted on it. -/
theorem TxSound.remove {p : BusPort} (h : TxSound p.tx) (which : Frame → Bool) : TxSound (p.remove which).tx := by
  refine h.filterMap fun t u e => ?_
  split at e
  · split at e
    · cases e
      exact ⟨rfl, rfl, id⟩
    · cases e
  · cases e
    exact ⟨rfl, rfl, id⟩

/-- R102, R112: of a transmit queue cleared out the frame in flight alone stays, its removal noted. -/
theorem mem_clearOut {p : BusPort} {t : TxFrame} (h : t ∈ p.clearOut.tx) : t.inFlight = true ∧ t.removed = true := by
  obtain ⟨u, -, hu⟩ := List.mem_filterMap.mp h
  simp only [if_true] at hu
  split at hu
  next hflight =>
    cases hu
    exact ⟨hflight, rfl⟩
  · cases hu

/-- R106: at most one frame stays in a queue cleared out. -/
theorem clearOut_length {p : BusPort} (h : TxSound p.tx) : p.clearOut.tx.length ≤ 1 := by
  have hall : p.clearOut.tx.countP (fun t => t.inFlight) = p.clearOut.tx.length :=
    List.countP_eq_length.mpr fun t ht => (mem_clearOut ht).1
  exact hall ▸ (h.remove (fun _ => true)).flight

/-- R112, R113: a withdrawal's NOTICE finds a slot in the queue cleared out. -/
theorem TxSound.withdrawalNotice {p : BusPort} (h : TxSound p.tx) (f : Frame) :
    TxSound (txInsert ⟨f, false, 0, false, false, false⟩ p.clearOut.tx) := by
  refine (h.remove (fun _ => true)).insert ?_
  have hcount : p.clearOut.tx.countP (fun t => !t.urgent) ≤ 1 := List.countP_le_length.trans (clearOut_length h)
  exact hcount.trans_lt (by decide)

/-- R105: an attempt moves no frame and changes no slot. -/
theorem markOffered_slots (l : List TxFrame) :
    (markOffered l).map (fun t => (t.frame, t.urgent)) = l.map (fun t => (t.frame, t.urgent)) := by
  induction l with
  | nil => rfl
  | cons t l ih => unfold markOffered; split <;> simp [ih]

/-- R105: an attempt puts at most one frame in flight. -/
theorem markOffered_flight {l : List TxFrame} (h : ∀ t ∈ l, t.inFlight = false) :
    (markOffered l).countP (fun t => t.inFlight) ≤ 1 := by
  induction l with
  | nil => exact Nat.zero_le _
  | cons t l ih =>
    obtain ⟨ht, hrest⟩ := List.forall_mem_cons.mp h
    unfold markOffered
    split
    · simpa [List.countP_cons, ht] using ih hrest
    · have hnone : l.countP (fun t => t.inFlight) = 0 := List.countP_eq_zero.mpr fun t ht => by simp [hrest t ht]
      simp [hnone]

theorem TxSound.offered {l : List TxFrame} (h : TxSound l) (hidle : ∀ t ∈ l, t.inFlight = false) :
    TxSound (markOffered l) := by
  have hcount (p : Bool → Bool) :
      (markOffered l).countP (fun t => p t.urgent) = l.countP (fun t => p t.urgent) := by
    simpa [List.countP_map, Function.comp_def] using congrArg (List.countP (fun x => p x.2)) (markOffered_slots l)
  have horder : (l.map (fun t => (t.frame, t.urgent))).Pairwise (fun a b => a.1.word.toNat ≤ b.1.word.toNat) :=
    List.pairwise_map.mpr h.order
  rw [← markOffered_slots l, List.pairwise_map] at horder
  exact ⟨(hcount (fun u => !u)).trans_le h.ordinary, (hcount id).trans_le h.urgent, horder, markOffered_flight hidle⟩

/-! ### What is kept, and how operations compose -/

theorem State.BusSound.tx {s : State} (h : s.BusSound) : TxSound s.port.tx := ⟨h.ordinary, h.urgent, h.order, h.flight⟩

/-- From `s` to `t` the bus port's bounds that held still hold, and the queue of commands stands. -/
structure KeepsBus (s t : State) : Prop where
  sound   : s.BusSound → t.BusSound
  pending : t.pending = s.pending

/-- What the bounds read besides the transmit queue, and the queue of commands. -/
structure BusRest where
  rx      : List Frame
  clear   : Bool
  leaving : Bool
  state   : StationState
  pending : List Instr

def State.busRest (s : State) : BusRest :=
  ⟨s.port.rx, s.port.clearPending, s.port.withdrawalPending, s.condition.state, s.pending⟩

/-- R97: the receive queue stands, and no withdrawal begins. -/
theorem State.BusSound.of_rx {s t : State} (h : s.BusSound) (hrx : t.port.rx = s.port.rx)
    (hclear : t.port.clearPending = s.port.clearPending) (hw : t.withdrawing = true → s.withdrawing = true)
    (htx : TxSound t.port.tx) : t.BusSound :=
  ⟨htx.ordinary, htx.urgent, htx.order, hrx ▸ h.receive, htx.flight, by rw [hclear, hrx]; exact h.clear, fun ht hc => by
    rw [hrx]
    exact h.leaving (hw ht) (hclear ▸ hc)⟩

/-- R102, R113: of the frames received the CLEARs alone are kept. -/
theorem busSound_of_keptClears {t : State} {rx : List Frame} (hlen : rx.length ≤ receiveSlots)
    (hrx : t.port.rx = rx.filter Frame.isClear) (hclear : t.port.clearPending = rx.any Frame.isClear)
    (htx : TxSound t.port.tx) : t.BusSound := by
  refine ⟨htx.ordinary, htx.urgent, htx.order, ?_, htx.flight, ?_, fun _ hc => ?_⟩
  · rw [hrx]
    exact (List.length_filter_le ..).trans hlen
  · rw [hrx, hclear, List.any_filter]
    simp
  · rw [hrx, List.filter_eq_nil_iff]
    rw [hclear, List.any_eq_false] at hc
    exact hc

theorem KeepsBus.of_tx {s t : State} (h : t.busRest = s.busRest) (htx : TxSound s.port.tx → TxSound t.port.tx) :
    KeepsBus s t := by
  simp only [State.busRest, BusRest.mk.injEq] at h
  obtain ⟨hrx, hclear, hleaving, hstate, hpending⟩ := h
  refine ⟨fun hs => hs.of_rx hrx hclear (fun hw => ?_) (htx hs.tx), hpending⟩
  rwa [State.withdrawing, hleaving, hstate] at hw

theorem KeepsBus.of_eq {s t : State} (h : t.busRest = s.busRest) (htx : t.port.tx = s.port.tx) : KeepsBus s t :=
  .of_tx h fun hs => htx ▸ hs

theorem KeepsBus.refl (s : State) : KeepsBus s s := .of_eq rfl rfl

theorem KeepsBus.trans {s t u : State} (h : KeepsBus s t) (g : KeepsBus t u) : KeepsBus s u :=
  ⟨g.sound ∘ h.sound, g.pending.trans h.pending⟩

/-- Blocks that the bounds do not read may be replaced before an operation. -/
theorem KeepsBus.after {s t u : State} (g : KeepsBus t u) (h : t.busRest = s.busRest) (htx : t.port.tx = s.port.tx) :
    KeepsBus s u := (KeepsBus.of_eq h htx).trans g

theorem KeepsBus.ite {p : Prop} [Decidable p] {s t u : State} (h : KeepsBus s t) (g : KeepsBus s u) :
    KeepsBus s (if p then t else u) := by
  split
  · exact h
  · exact g

theorem KeepsBus.foldl {α : Type} {f : State → α → State} (h : ∀ s x, KeepsBus s (f s x)) (l : List α) (s : State) :
    KeepsBus s (l.foldl f s) := by
  induction l generalizing s with
  | nil => exact .refl s
  | cons x l ih => exact (h s x).trans (ih _)

/-! ### Queues, notices and conditions (R102 to R104, R158 to R163) -/

/-- R103, R104: a frame handed over enters a slot that is free, or waits. -/
theorem handOver_keepsBus (who : Producer) (f : Frame) (s : State) : KeepsBus s (handOver who f s) := by
  rcases handOver_cases who f s with h | h | ⟨u, hslot, h⟩ <;> rw [h]
  · exact .refl s
  · unfold BusPort.await
    split
    · exact .refl s
    · exact .of_eq rfl rfl
  · refine .of_tx rfl fun hs => hs.insert ?_
    cases u with
    | true => exact (slotFor_urgent hslot).2
    | false => exact slotFor_ordinary hslot

theorem sendNotice_keepsBus (n : Notice) (s : State) : KeepsBus s (sendNotice n s) := handOver_keepsBus ..

theorem sendAbortNotice_keepsBus (n : Notice) (a : CopyIndex) (s : State) : KeepsBus s (sendAbortNotice n a s) := by
  unfold sendAbortNotice
  split
  · exact sendNotice_keepsBus ..
  · exact .ite (.of_eq rfl rfl) (.refl s)

theorem releasePendingNotices_keepsBus (s : State) : KeepsBus s (releasePendingNotices s) :=
  (KeepsBus.foldl (fun _ _ => sendAbortNotice_keepsBus ..) _ _).after rfl rfl

theorem queueNoticesAt_keepsBus (p : CopyIndex) (s : State) : KeepsBus s (queueNoticesAt p s) :=
  (KeepsBus.foldl (fun _ _ => sendNotice_keepsBus ..) _ _).after rfl rfl

theorem raiseTrap_keepsBus (t : Trap) (s : State) : KeepsBus s (raiseTrap t s) := by
  unfold raiseTrap
  split
  · exact sendNotice_keepsBus ..
  · exact .ite (sendNotice_keepsBus ..) (.ite (.of_eq rfl rfl) (.refl s))

theorem reportTraps_keepsBus (n : LineNumber) (holds : CopyIndex → Bool) (s : State) :
    KeepsBus s (reportTraps n holds s) := (KeepsBus.foldl (fun _ _ => sendNotice_keepsBus ..) _ _).after rfl rfl

theorem raiseNamedTrap_keepsBus (t : Trap) (n : LineNumber) (s : State) : KeepsBus s (raiseNamedTrap t n s) :=
  .ite (sendNotice_keepsBus ..) (.refl s)

theorem sendRecall_keepsBus (c : FrameClass) (r : LineRef) (k : CondCode) (s : State) :
    KeepsBus s (sendRecall c r k s) := .ite (.refl s) (handOver_keepsBus ..)

theorem abandonShaping_keepsBus (s : State) : KeepsBus s (abandonShaping s) := by
  unfold abandonShaping
  split
  · exact .refl s
  · exact .of_eq rfl rfl

theorem abandonBox_keepsBus (s : State) : KeepsBus s (abandonBox s) := .of_eq rfl rfl

/-- R112, R160: the frame of a withdrawal's NOTICE, of level 0. -/
def withdrawFrame (c : Cond) (cause : Nat) (s : State) : Frame :=
  ⟨arbWord 0 .notice s.port.station,
    Notice.encode ⟨c.code, LineRef.number? (c.ref s), c.item, withdrawResume (c.ref s) s, c.ext, cause⟩⟩

/-- R112, R172: the port as a withdrawal leaves it. -/
theorem withdraw_port_eq (c : Cond) (cause : Nat) (s : State) :
    (withdraw c cause s).port =
      if s.port.clearPending then { s.port.clearOut.keepClears with withdrawalPending := true }
      else BusPort.enqueue { s.port.clearOut.keepClears with withdrawalPending := true } (withdrawFrame c cause s) false
        false := by
  have hs : (abandonBox (abandonShaping s)).port = s.port := by
    unfold abandonBox abandonShaping
    split <;> rfl
  unfold withdraw
  dsimp only
  rw [hs]
  rfl

/-- R112, R113: a withdrawal leaves its NOTICE, and of the frames received the CLEARs. -/
theorem withdraw_keepsBus (c : Cond) (cause : Nat) (s : State) : KeepsBus s (withdraw c cause s) := by
  refine ⟨fun hs => ?_, congrArg (fun x => x.1.pending) (withdraw_calm c cause s)⟩
  have hport := withdraw_port_eq c cause s
  refine busSound_of_keptClears hs.receive (withdraw_port c cause s).1 ?_ ?_ <;> rw [hport]
  · refine Eq.trans ?_ hs.clear
    split <;> rfl
  · split
    · exact hs.tx.remove (fun _ => true)
    · exact hs.tx.withdrawalNotice _

theorem raiseFault_keepsBus (c : Cond) (s : State) : KeepsBus s (raiseFault c s) := by
  unfold raiseFault
  split
  · exact sendNotice_keepsBus ..
  · exact (KeepsBus.ite (sendRecall_keepsBus ..) (.refl s)).trans (sendNotice_keepsBus ..)

theorem raiseAbort_keepsBus (c : Cond) (s : State) : KeepsBus s (raiseAbort c s) := by
  unfold raiseAbort
  split
  · exact sendAbortNotice_keepsBus ..
  · exact (KeepsBus.ite (.refl s) (sendRecall_keepsBus ..)).trans (sendAbortNotice_keepsBus ..)

theorem advanceChoices_keepsBus (r : Option LineRef) (s : State) : KeepsBus s (advanceChoices r s) :=
  .ite (.of_eq rfl rfl) (.refl s)

/-- A raised condition hands frames over or begins a withdrawal. -/
theorem raise_keepsBus (c : Cond) (s : State) : KeepsBus s (raise c s) := by
  unfold raise
  refine .ite (.ite (withdraw_keepsBus ..) (.ite (withdraw_keepsBus ..) ?_)) (.refl s)
  split
  · exact raiseTrap_keepsBus ..
  · exact (raiseFault_keepsBus ..).trans (advanceChoices_keepsBus ..)
  · exact (raiseAbort_keepsBus ..).trans (advanceChoices_keepsBus ..)
  · exact (raiseAbort_keepsBus ..).trans (advanceChoices_keepsBus ..)

/-- R113: a station in WITHDRAWN has nothing to send, and of the frames received the CLEARs. -/
theorem enterWithdrawn_keepsBus (s : State) : KeepsBus s (enterWithdrawn s) :=
  ⟨fun hs => busSound_of_keptClears hs.receive rfl hs.clear txSound_nil, rfl⟩

/-! ### The shaper, the box builder and the cutter -/

theorem checkStoreFull_keepsBus (i : CopyIndex) (n : Nat) (s : State) : KeepsBus s (checkStoreFull i n s) :=
  .ite (raise_keepsBus ..) (.refl s)

theorem checkWaitingStore_keepsBus (s : State) : KeepsBus s (checkWaitingStore s) := by
  have own (x : Option SegRecord) :
      KeepsBus s (match x with | some r => checkStoreFull r.start r.charCount s | none => s) := by
    cases x with
    | none => exact .refl s
    | some r => exact checkStoreFull_keepsBus ..
  unfold checkWaitingStore
  dsimp only
  split
  · exact (own _).trans (checkStoreFull_keepsBus ..)
  · exact own _

theorem startNextRead_keepsBus (s : State) : KeepsBus s (startNextRead s) := .of_eq rfl rfl

theorem startMeasure_keepsBus (s : State) : KeepsBus s (startMeasure s) := by
  unfold startMeasure
  refine .ite (.refl s) ?_
  split
  · exact .of_eq rfl rfl
  · split
    · exact .of_eq rfl rfl
    · exact .refl s

theorem restartShaping_keepsBus (s : State) : KeepsBus s (restartShaping s) := by
  unfold restartShaping
  split
  · exact .refl s
  · exact .of_eq rfl rfl

theorem shapingViolation_keepsBus (b : CopyIndex) (k : Nat) (i : CopyIndex) (s : State) :
    KeepsBus s (shapingViolation b k i s) := by
  have marked : KeepsBus s (raise ⟨.cartridgeAddress, i, b, none, none, some b⟩
      (s.withCartridge (s.cartridge.markUnusable k))) := (raise_keepsBus ..).after rfl rfl
  unfold shapingViolation
  refine KeepsBus.trans ?_ (restartShaping_keepsBus _)
  split
  · exact marked.trans (raise_keepsBus ..)
  · exact marked

theorem resumeShaping_keepsBus (n : Nat) (s : State) : KeepsBus s (resumeShaping n s) := by
  induction n generalizing s with
  | zero => exact .refl s
  | succ n ih =>
    unfold resumeShaping
    split
    · exact .refl s
    · exact (shapingViolation_keepsBus ..).trans (ih _)
    · exact raise_keepsBus ..
    · exact .of_eq rfl rfl
    · exact .refl s

theorem resumeBox_keepsBus (s : State) : KeepsBus s (resumeBox s) := by
  unfold resumeBox
  split
  · exact .refl s
  next op _ slot item _ _ =>
    have marked : KeepsBus s (raise ⟨.cartridgeAddress, item, op.start, none, none, some op.start⟩
        (s.withCartridge (s.cartridge.markUnusable slot))) := (raise_keepsBus ..).after rfl rfl
    have resumed (u : State) : KeepsBus u (resumeShaping restartFuel (restartShaping u)) :=
      (restartShaping_keepsBus u).trans (resumeShaping_keepsBus ..)
    exact (marked.trans (.ite (resumed _) (.refl _))).trans (raise_keepsBus ..)
  · exact raise_keepsBus ..
  · exact .of_eq rfl rfl
  · exact .refl s

theorem beginShaping_keepsBus (r : SegRecord) (s : State) : KeepsBus s (beginShaping r s) :=
  (resumeShaping_keepsBus ..).after rfl rfl

theorem beginBox_keepsBus (b : BoxRecord) (s : State) : KeepsBus s (beginBox b s) :=
  (resumeBox_keepsBus _).after rfl rfl

theorem grantShaping_keepsBus (s : State) : KeepsBus s (grantShaping s) := by
  unfold grantShaping
  split
  · exact .ite (beginShaping_keepsBus ..) (.refl s)
  · exact .refl s

theorem grantBox_keepsBus (s : State) : KeepsBus s (grantBox s) := by
  unfold grantBox
  split
  · exact .ite (beginBox_keepsBus ..) (.refl s)
  · exact .refl s

theorem grantStore_keepsBus (s : State) : KeepsBus s (grantStore s) :=
  .ite (.ite (((grantBox_keepsBus _).trans (grantShaping_keepsBus _)).after rfl rfl)
    (((grantShaping_keepsBus _).trans (grantBox_keepsBus _)).after rfl rfl))
    ((grantShaping_keepsBus _).trans (grantBox_keepsBus _))

theorem startShaping_keepsBus (s : State) : KeepsBus s (startShaping s) := by
  unfold startShaping
  refine .ite ?_ (.refl s)
  split
  · exact .refl s
  · exact .ite (beginShaping_keepsBus ..) ((checkStoreFull_keepsBus ..).after rfl rfl)

theorem startBox_keepsBus (s : State) : KeepsBus s (startBox s) := by
  unfold startBox
  refine .ite ?_ (.refl s)
  split
  · exact .refl s
  · exact .ite ((beginBox_keepsBus ..).after rfl rfl) ((checkStoreFull_keepsBus ..).after rfl rfl)

theorem publishRecord_keepsBus (r : SegRecord) (s : State) : KeepsBus s (publishRecord r s) :=
  (handOver_keepsBus ..).trans (.of_eq rfl rfl)

theorem publishBox_keepsBus (b : BoxRecord) (s : State) : KeepsBus s (publishBox b s) :=
  (handOver_keepsBus ..).trans (.of_eq rfl rfl)

theorem publish_keepsBus (s : State) (x : Published) : KeepsBus s (publish s x) := by
  cases x with
  | own r => exact publishRecord_keepsBus ..
  | box b => exact publishBox_keepsBus ..

theorem raiseMisses_keepsBus (l : List CopyIndex) (s : State) : KeepsBus s (raiseMisses l s) :=
  .foldl (fun _ _ => raise_keepsBus ..) l s

theorem completeShaping_keepsBus (s : State) : KeepsBus s (completeShaping s) := by
  unfold completeShaping
  refine .ite ?_ (.refl s)
  split
  · refine .ite (KeepsBus.trans ?_ (publishRecord_keepsBus ..)) (.refl s)
    exact .ite (.of_eq rfl rfl) ((raiseMisses_keepsBus ..).after rfl rfl)
  · exact .refl s

theorem completeBox_keepsBus (s : State) : KeepsBus s (completeBox s) := by
  unfold completeBox
  refine .ite ?_ (.refl s)
  split
  · exact .ite ((publishBox_keepsBus ..).after rfl rfl) (.refl s)
  · exact .refl s

theorem placeRemainder_keepsBus (s : State) : KeepsBus s (placeRemainder s) := by
  unfold placeRemainder
  split
  · exact .ite (.of_eq rfl rfl) (.refl s)
  · exact .refl s

theorem cutSegment_keepsBus (n : LineNumber) (i : CopyIndex) (o : TallyOpp) (s : State) :
    KeepsBus s (cutSegment n i o s) := by
  unfold cutSegment
  split
  · split
    · exact .ite ((placeRemainder_keepsBus _).after rfl rfl) (.refl s)
    · exact .refl s
  · exact .refl s

theorem runCutter_keepsBus (n : Nat) (s : State) : KeepsBus s (runCutter n s) := by
  induction n generalizing s with
  | zero => exact .refl s
  | succ n ih =>
    unfold runCutter
    refine .ite ?_ (.refl s)
    split
    · exact .ite ((ih _).after rfl rfl) (.of_eq rfl rfl)
    · exact .ite ((ih _).after rfl rfl) (.refl s)

theorem resumeCutting_keepsBus (s : State) : KeepsBus s (resumeCutting s) := runCutter_keepsBus ..

/-! ### The placement unit, and what a freeing sets going (R104, R148) -/

theorem pumpFrames_keepsBus (n : Nat) (s : State) : KeepsBus s (pumpFrames n s) := by
  induction n generalizing s with
  | zero => exact .refl s
  | succ n ih =>
    unfold pumpFrames
    refine .ite ?_ (.refl s)
    split
    · exact .refl s
    next p _ =>
      have built : KeepsBus s (s.withPlacement (s.placement.mapLine p.number (fun x =>
          { x with nextEntry := min x.entryCount (x.nextEntry + frameEntries) }))) := .of_eq rfl rfl
      exact (built.trans (handOver_keepsBus ..)).trans (ih _)

theorem pump_keepsBus (s : State) : KeepsBus s (pump s) := pumpFrames_keepsBus ..

/-- R104: a waiting frame enters a slot that is free. -/
theorem enterWaiting_keepsBus (w : WaitingFrame) (s : State) : KeepsBus s (enterWaiting w s) := by
  unfold enterWaiting
  split
  · exact .refl s
  next u hslot =>
    have entered : KeepsBus s (s.withPort (BusPort.enqueue { s.port with waiting := s.port.waiting.erase w } w.frame u
        (s.placement.entryMark w.frame))) := by
      refine .of_tx rfl fun hs => hs.insert ?_
      cases u with
      | true => exact (slotFor_urgent hslot).2
      | false => exact slotFor_ordinary hslot
    dsimp only
    split
    · exact entered.trans (.of_eq rfl rfl)
    · exact entered.trans (.of_eq rfl rfl)
    · exact entered.trans (pump_keepsBus _)
    all_goals exact entered

theorem settleFrames_keepsBus (n : Nat) (s : State) : KeepsBus s (settleFrames n s) := by
  induction n generalizing s with
  | zero => exact .refl s
  | succ n ih =>
    unfold settleFrames
    split
    · exact (enterWaiting_keepsBus ..).trans (ih _)
    · exact .refl s

theorem settleSlots_keepsBus (s : State) : KeepsBus s (settleSlots s) := settleFrames_keepsBus ..

theorem settle_keepsBus (s : State) : KeepsBus s (settle s) :=
  (settleSlots_keepsBus s).trans <| (placeRemainder_keepsBus _).trans <| (resumeCutting_keepsBus _).trans <|
    (grantStore_keepsBus _).trans <| (startMeasure_keepsBus _).trans (startNextRead_keepsBus _)

/-- What an event sets going in the other blocks keeps the bus port's bounds. -/
theorem KeepsBus.finish {s t : State} (h : KeepsBus s t) : KeepsBus s (finish t) :=
  h.trans (.ite ((settle_keepsBus t).trans (pump_keepsBus _)) (startNextRead_keepsBus t))

theorem settleFreed_keepsBus (s : State) : KeepsBus s (settleFreed s) := .ite (settle_keepsBus s) (.refl s)

/-- A command that acts in some states and then settles. -/
theorem KeepsBus.guarded {p : Prop} [Decidable p] {s t : State} (h : KeepsBus s t) :
    KeepsBus s (if p then Machine.finish t else s) := .ite h.finish (.refl s)

/-! ### The tally unit -/

theorem requeueHeldMuster_keepsBus (s : State) : KeepsBus s (requeueHeldMuster s) := by
  unfold requeueHeldMuster
  split
  · exact (handOver_keepsBus ..).after rfl rfl
  · exact .refl s

theorem queueMuster_keepsBus (s : State) : KeepsBus s (queueMuster s) := (handOver_keepsBus ..).after rfl rfl

theorem openLine_keepsBus (r : LineRecord) (s : State) : KeepsBus s (openLine r s) :=
  .ite ((requeueHeldMuster_keepsBus _).after rfl rfl) (.of_eq rfl rfl)

theorem checkGapMark_keepsBus (s : State) : KeepsBus s (checkGapMark s) := by
  unfold checkGapMark
  split
  · exact .ite ((KeepsBus.foldl (fun _ _ => raise_keepsBus ..) _ _).after rfl rfl) (.refl s)
  · exact .refl s

theorem runScan_keepsBus (s : State) : KeepsBus s (runScan s) := by
  unfold runScan
  split
  · dsimp only
    split
    · exact (raise_keepsBus ..).after rfl rfl
    · exact .of_eq rfl rfl
  · exact .refl s

theorem compareVerdict_keepsBus (r : LineRecord) (n : Nat) (f : Figures) (s : State) :
    KeepsBus s (compareVerdict r n f s) := .ite (.refl s) (raise_keepsBus ..)

theorem cutAtBreak_keepsBus (r : LineRecord) (b : Break) (s : State) : KeepsBus s (cutAtBreak r b s) := by
  unfold cutAtBreak
  split
  · exact .ite (cutSegment_keepsBus ..) (.refl s)
  · exact .refl s

/-- R126, R127: a decision hands its frames over and raises conditions. -/
theorem decideLine_keepsBus (r : LineRecord) (p : LineParams) (s : State) : KeepsBus s (decideLine r p s) := by
  unfold decideLine
  extract_lets b st d s1 s2 lost s3 s4 s5 s6 s7
  have h1 : KeepsBus s s1 := .of_eq rfl rfl
  have h2 : KeepsBus s1 s2 := cutAtBreak_keepsBus ..
  have h3 : KeepsBus s2 s3 := handOver_keepsBus ..
  have placed : KeepsBus s3 (placeDecided d st s3) := .of_eq rfl rfl
  have h4 : KeepsBus s3 s4 := placed.trans ((pump_keepsBus _).trans (openLine_keepsBus ..))
  have h5 : KeepsBus s4 s5 := (KeepsBus.ite (raise_keepsBus ..) (.refl s4)).trans (.ite (raise_keepsBus ..) (.refl _))
  have h6 : KeepsBus s5 s6 := .foldl (fun _ _ => raise_keepsBus ..) _ _
  have h7 : KeepsBus s6 s7 := .foldl (fun _ _ => compareVerdict_keepsBus ..) _ _
  exact h1.trans <| h2.trans <| h3.trans <| h4.trans <| h5.trans <| h6.trans <| h7.trans <|
    .ite (checkWaitingStore_keepsBus _) (.refl _)

theorem decideIfDue_keepsBus (s : State) : KeepsBus s (decideIfDue s) := by
  unfold decideIfDue
  split
  · split
    · exact .ite (decideLine_keepsBus ..) (.refl s)
    · exact .refl s
  · exact .refl s

theorem tallyRound_keepsBus (s : State) : KeepsBus s (tallyRound s) :=
  (checkGapMark_keepsBus s).trans <| (runScan_keepsBus _).trans (decideIfDue_keepsBus _)

/-- The scan and the decisions it leads to keep the bus port's bounds. -/
theorem settleTally_keepsBus (s : State) : KeepsBus s (settleTally s) := by
  have timed (u : State) (b : Option (LineNumber × CopyIndex)) : KeepsBus u (u.withTally (u.tally.timeCoverage b)) :=
    .of_eq rfl rfl
  have rounds := (tallyRound_keepsBus s).trans <| (tallyRound_keepsBus _).trans (tallyRound_keepsBus _)
  exact .ite (.ite (rounds.trans (timed ..)) rounds) (.refl s)

/-! ### Operations that free copy -/

theorem freeSegments_keepsBus (e : CopyIndex) (s : State) : KeepsBus s (freeSegments e s) :=
  (KeepsBus.ite (abandonShaping_keepsBus s) (.refl s)).trans <|
    (KeepsBus.ite (abandonBox_keepsBus _) (.refl _)).trans (.of_eq rfl rfl)

theorem killSegments_keepsBus (e : CopyIndex) (s : State) : KeepsBus s (killSegments e s) :=
  (KeepsBus.ite (abandonShaping_keepsBus s) (.refl s)).trans <|
    (KeepsBus.ite (abandonBox_keepsBus _) (.refl _)).trans (.of_eq rfl rfl)

theorem undoCuts_keepsBus (n : LineNumber) (s : State) : KeepsBus s (undoCuts n s) :=
  (KeepsBus.ite (abandonShaping_keepsBus s) (.refl s)).trans (.of_eq rfl rfl)

end Sys2Proof.Machine
end

-- ==== proofs: the bus port, command by command ====
section
/-! What every command keeps: the bounds of the bus port, and the queue of commands. With it the statements on every step and on
the commands that complete. -/

namespace Sys2Proof.Machine

/-! ### Frames at the head of the receive queue (R101) -/

/-- R97: the queue without its head is within its bound. -/
theorem rest_length_le {s : State} {f : Frame} {rest : List Frame} (hs : s.BusSound) (hr : s.port.rx = f :: rest) :
    rest.length ≤ receiveSlots := by
  have hlen := hs.receive
  rw [hr, List.length_cons] at hlen
  exact (Nat.le_succ _).trans hlen

/-- R97: a head of another class than CLEAR that leaves changes neither whether a CLEAR waits nor what a withdrawal holds. -/
theorem pop_keepsBus {s : State} {f : Frame} {rest : List Frame} (hr : s.port.rx = f :: rest) (hf : f.cls ≠ .clear) :
    KeepsBus s (s.withPort { s.port with rx := rest }) := by
  have hclear : f.isClear = false := by simpa [Frame.isClear] using hf
  refine ⟨fun hs => ⟨hs.ordinary, hs.urgent, hs.order, ?_, hs.flight, ?_, fun hw hc => ?_⟩, rfl⟩
  · exact rest_length_le hs hr
  · simpa [hr, hclear] using hs.clear
  · exact absurd (hs.leaving hw hc) (by simp [hr])

theorem takeHead_keepsBus {c : FrameClass} {act : Frame → State → State} (hc : c ≠ .clear)
    (h : ∀ f u, KeepsBus u (act f u)) (s : State) : KeepsBus s (takeHead c act s) := by
  rcases takeHead_cases c act s with e | ⟨f, rest, hr, hf, -, e⟩ <;> rw [e]
  · exact .refl s
  · exact ((pop_keepsBus hr (hf ▸ hc)).trans (h f _)).finish

/-! ### Copy (R2, R10, R17, R18) -/

theorem makeRoom_keepsBus (s : State) : KeepsBus s (makeRoom s) := .ite (.of_eq rfl rfl) (.refl s)

theorem endKillIfDue_keepsBus (s : State) : KeepsBus s (endKillIfDue s) := by
  have ended (k : KillInProgress) (p : CopyIndex) : KeepsBus s (endKill k p s) := by
    have opened (u : State) (r : LineRecord) : KeepsBus u (releasePendingNotices (openLine r u)) :=
      (openLine_keepsBus ..).trans (releasePendingNotices_keepsBus _)
    have named : KeepsBus s (nameUnreported (p + 1) { s with
        condition := { s.condition with kill := none }
        tally := { s.tally with fence := some k.next } }) := .of_eq rfl rfl
    exact (named.trans (opened ..)).trans (.of_eq rfl rfl)
  unfold endKillIfDue
  split
  · split
    · exact ended ..
    · exact .of_eq rfl rfl
  · exact .refl s

theorem completeItem_keepsBus (sender : Nat) (body : ItemBody) (s : State) : KeepsBus s (completeItem sender body s) := by
  have joined (u : State) : KeepsBus u (joinWindow body u) := .of_eq rfl rfl
  have refused (u v : State) : KeepsBus v (raiseRefused sender body u v) := .ite (raise_keepsBus ..) (.refl v)
  have noted (p : CopyIndex) (u : State) : KeepsBus u (noteJoinedPara p u) := (queueNoticesAt_keepsBus ..).after rfl rfl
  exact (makeRoom_keepsBus s).trans <| (joined _).trans <| (refused ..).trans <| (KeepsBus.ite (noted ..) (.refl _)).trans <|
    (endKillIfDue_keepsBus _).trans <| (resumeCutting_keepsBus _).trans (settleTally_keepsBus _)

theorem decodeBytes_keepsBus (sender : Nat) (bs : List Byte) (s : State) : KeepsBus s (decodeBytes sender bs s) := by
  induction bs generalizing s with
  | nil => exact .refl s
  | cons b rest ih =>
    have decoded (d : Decoder) : KeepsBus s (s.withDecoder d) := .of_eq rfl rfl
    unfold decodeBytes
    refine .ite ?_ (.refl s)
    split
    · exact (decoded _).trans (ih _)
    · exact (decoded _).trans ((completeItem_keepsBus ..).trans (ih _))

theorem checkSequence_keepsBus (sender : Nat) (payload : List Byte) (s : State) :
    KeepsBus s (checkSequence sender payload s) := by
  have marked (p : CopyIndex) (g : GapNote) (empty : Bool) (u : State) : KeepsBus u (placeGapMark p g empty u) :=
    .ite (.of_eq rfl rfl) (.ite (.of_eq rfl rfl) (.of_eq rfl rfl))
  have gap (empty : Bool) (u : State) : KeepsBus u (activeGap sender empty u) := by
    unfold activeGap
    dsimp only
    split
    · exact raise_keepsBus ..
    · split
      · exact .refl u
      · split
        · exact raise_keepsBus ..
        · exact marked ..
  have taken : KeepsBus s (s.withDecoder (s.decoder.sequence (wordField payload 0))) := .of_eq rfl rfl
  exact .ite taken (.ite (taken.trans (.of_eq rfl rfl)) (taken.trans (gap ..)))

theorem decodeCopy_keepsBus (f : Frame) (s : State) : KeepsBus s (decodeCopy f s) :=
  .ite (.refl s) ((checkSequence_keepsBus ..).trans (decodeBytes_keepsBus ..))

/-! ### MEASURE, MUSTER, NOTICE and PLACE -/

theorem handleMeasure_keepsBus (f : Frame) (s : State) : KeepsBus s (handleMeasure f s) := by
  have enter (r : LineRecord) (g : SegItem) (u : State) : KeepsBus u (enterSegment r g u) :=
    .ite (.of_eq rfl rfl) (.ite (.refl u) ((raise_keepsBus ..).after rfl rfl))
  have take (r : LineRecord) (g : SegItem) (u : State) : KeepsBus u (takeMeasure r g u) := by
    unfold takeMeasure
    split
    · exact .ite (raise_keepsBus ..) (.refl u)
    · exact .ite (enter ..) (.ite (.ite (.refl u) (.of_eq rfl rfl)) (.ite (.refl u) (raise_keepsBus ..)))
  have route (m : MeasureMsg) (u : State) : KeepsBus u (routeMeasure f.sender m u) := by
    unfold routeMeasure
    refine .ite ?_ (.refl u)
    split
    · exact take ..
    · exact .refl u
  have restart : KeepsBus s (s.withTally s.tally.restartCoverage) := .of_eq rfl rfl
  unfold handleMeasure
  split
  · exact .ite (restart.trans ((route ..).trans (settleTally_keepsBus _))) (.refl s)
  · exact .refl s

theorem handleMuster_keepsBus (f : Frame) (s : State) : KeepsBus s (handleMuster f s) := .ite (.of_eq rfl rfl) (.refl s)

theorem handleNotice_keepsBus (f : Frame) (s : State) : KeepsBus s (handleNotice f s) := by
  unfold handleNotice
  split
  · exact .ite (.of_eq rfl rfl) (.refl s)
  · exact .refl s

theorem handlePlace_keepsBus (f : Frame) (s : State) : KeepsBus s (handlePlace f s) := by
  have carry (m : PlaceMsg) : KeepsBus s (carryPlace m s) := by
    unfold carryPlace
    split
    · exact .ite (.ite (.of_eq rfl rfl) (.of_eq rfl rfl)) (.refl s)
    · exact .refl s
  unfold handlePlace
  split
  · exact .ite (carry _) (.refl s)
  · exact .refl s

/-! ### HOLD and RELEASE (R152 to R155) -/

/-- R152, R153: a held-back mark moves no frame. -/
theorem holdBack_keepsBus (which : LineNumber → Bool) (s : State) : KeepsBus s (s.withPort (s.port.holdBack which)) := by
  refine .of_tx rfl fun hs => hs.map fun t => ?_
  split <;> exact ⟨rfl, rfl, id⟩

theorem unhold_keepsBus (s : State) : KeepsBus s (s.withPort s.port.unhold) :=
  .of_tx rfl fun hs => hs.map fun _ => ⟨rfl, rfl, id⟩

theorem applyHold_keepsBus (s : State) : KeepsBus s (applyHold s) := by
  unfold applyHold
  split
  · exact holdBack_keepsBus ..
  · exact (holdBack_keepsBus _ (s.withPlacement { s.placement with finishing := s.port.finishingLine })).after rfl rfl
  · refine KeepsBus.trans (.of_tx ?_ fun hs => hs.remove (isPlaceOf s.tally.decided)) (settleSlots_keepsBus _)
    rfl

theorem applyRelease_keepsBus (s : State) : KeepsBus s (applyRelease s) := by
  unfold applyRelease
  split
  · exact unhold_keepsBus s
  · exact (unhold_keepsBus (s.withPlacement { s.placement with finishing := none })).after rfl rfl
  · exact (pump_keepsBus _).after rfl rfl

theorem handleHold_keepsBus (f : Frame) (s : State) : KeepsBus s (handleHold f s) :=
  .ite (.refl s) (.ite ((applyHold_keepsBus _).after rfl rfl) (.of_eq rfl rfl))

theorem handleRelease_keepsBus (f : Frame) (s : State) : KeepsBus s (handleRelease f s) :=
  .ite (.ite ((applyRelease_keepsBus _).after rfl rfl) (.of_eq rfl rfl)) (.refl s)

/-! ### VERDICT and joining (R132, R181) -/

/-- R136, R171: the end of the kill period leaves the station state. -/
theorem KeepsBus.endPeriod {s t : State} {p : Prop} [Decidable p] (hport : t.port = s.port)
    (hc : t.condition = if p then { s.condition with killPeriod := none } else s.condition)
    (hpending : t.pending = s.pending) : KeepsBus s t := by
  have hstate : t.condition.state = s.condition.state := by
    rw [hc]
    split <;> rfl
  exact .of_eq (by simp only [State.busRest, hport, hstate, hpending]) (congrArg BusPort.tx hport)

theorem ownVerdictCarried_keepsBus (r : LineRecord) (s : State) : KeepsBus s (ownVerdictCarried r s) := by
  have sent (u : State) : KeepsBus u (trySendLine r.number u) := .of_eq rfl rfl
  unfold ownVerdictCarried
  refine KeepsBus.trans ?_ ((sent _).trans (reportTraps_keepsBus ..))
  exact .endPeriod rfl rfl rfl

theorem takeVerdict_keepsBus (n : Nat) (m : VerdictMsg) (s : State) : KeepsBus s (takeVerdict n m s) := by
  have matched (r : LineRecord) : KeepsBus s (matchVerdict r n m s) := by
    have store : KeepsBus s (s.withTally (s.tally.mapLine r.number (fun x => x.store ⟨n, m.gen, m.figures⟩))) :=
      .of_eq rfl rfl
    have compared := store.trans (compareVerdict_keepsBus r n m.figures _)
    exact .ite (.ite store (compared.trans (.ite (ownVerdictCarried_keepsBus ..) (.refl _))))
      (.ite (.refl s) (raise_keepsBus ..))
  unfold takeVerdict
  refine .ite (.refl s) ?_
  split
  · exact matched _
  · split
    · exact .ite (raiseNamedTrap_keepsBus ..) (.refl s)
    · split
      · exact .ite (raise_keepsBus ..) (.refl s)
      · exact .refl s

/-- R181: a station that joins enters ACTIVE. -/
theorem joinStation_keepsBus (n : LineNumber) (e : CopyIndex) (w : Window) (s : State) :
    KeepsBus s (joinStation n e w s) := by
  have joined : KeepsBus s (joinedAt e w s) := by
    refine ⟨fun hs => hs.of_rx rfl rfl (fun hw => ?_) hs.tx, rfl⟩
    have hleaving : s.port.withdrawalPending = true := hw
    simp [State.withdrawing, hleaving]
  have entry (u : State) : KeepsBus u (applyHoldAtEntry u) := .ite ((applyHold_keepsBus _).after rfl rfl) (.refl u)
  exact joined.trans <| (openLine_keepsBus ..).trans <| (entry _).trans <| (queueMuster_keepsBus _).trans <|
    (resumeCutting_keepsBus _).trans (settleTally_keepsBus _)

theorem handleVerdict_keepsBus (f : Frame) (s : State) : KeepsBus s (handleVerdict f s) := by
  have enrolled : KeepsBus s (s.withTally (s.tally.enrol f.sender)) := .of_eq rfl rfl
  unfold handleVerdict
  split
  · refine .ite (enrolled.trans (takeVerdict_keepsBus ..)) (enrolled.trans (.ite ?_ (.refl _)))
    split
    · exact joinStation_keepsBus ..
    · exact .refl _
  · exact .refl s

/-! ### Lines taken, recalled and killed (R136, R165, R168) -/

theorem takeLine_keepsBus (s : State) (r : LineRecord) : KeepsBus s (takeLine s r) := by
  unfold takeLine
  extract_lets e s1 s2
  have h1 : KeepsBus s s1 := by
    refine KeepsBus.trans (.of_tx ?_ fun hs => hs.remove (isLineFrame r.number))
      ((freeSegments_keepsBus ..).trans (settleFreed_keepsBus _))
    rfl
  have h2 : KeepsBus s1 s2 := reportTraps_keepsBus ..
  exact h1.trans (h2.trans (.endPeriod rfl rfl rfl))

theorem handleTaken_keepsBus (f : Frame) (s : State) : KeepsBus s (handleTaken f s) := by
  unfold handleTaken
  split
  · exact .ite ((KeepsBus.foldl takeLine_keepsBus _ s).trans (settleTally_keepsBus _)) (.refl s)
  · exact .refl s

theorem firstRecall_keepsBus (r : LineRecord) (s : State) : KeepsBus s (firstRecall r s) := by
  have blocks : KeepsBus s (recallBlocks r s) := by
    refine KeepsBus.trans (.of_tx ?_ fun hs => hs.remove (isRecalled r.number r.start)) (undoCuts_keepsBus ..)
    rfl
  exact blocks.trans <| (settleFreed_keepsBus _).trans <| (KeepsBus.foldl publish_keepsBus _ _).trans <|
    (checkWaitingStore_keepsBus _).trans (settleTally_keepsBus _)

theorem startKill_keepsBus (n : LineNumber) (start : CopyIndex) (s : State) : KeepsBus s (startKill n start s) := by
  have blocks : KeepsBus s (killBlocks n start s) := by
    refine KeepsBus.trans (.of_tx ?_ fun hs => hs.remove (isRecalled n start)) (killSegments_keepsBus ..)
    rfl
  exact blocks.trans <| (settleFreed_keepsBus _).trans <| (endKillIfDue_keepsBus _).trans (settleTally_keepsBus _)

theorem handleKill_keepsBus (f : Frame) (s : State) : KeepsBus s (handleKill f s) := by
  have matched (m : RecallMsg) : KeepsBus s (matchKill m s) := by
    unfold matchKill
    refine .ite (.refl s) ?_
    split
    · exact .refl s
    · exact .ite (startKill_keepsBus ..) (.refl s)
  unfold handleKill
  split
  · exact .ite (matched _) (.refl s)
  · exact .refl s

theorem handleRecall_keepsBus (f : Frame) (s : State) : KeepsBus s (handleRecall f s) := by
  have late (m : RecallMsg) : KeepsBus s (lateRecall f.sender m s) := .ite (raiseNamedTrap_keepsBus ..) (.refl s)
  have matched (m : RecallMsg) : KeepsBus s (matchRecall f.sender m s) := by
    unfold matchRecall
    refine .ite (late m) ?_
    split
    · exact .refl s
    · exact .ite (.refl s) <| .ite (startKill_keepsBus ..) <| .ite (.refl s) <|
        .ite (startKill_keepsBus ..) (firstRecall_keepsBus ..)
  unfold handleRecall
  split
  · exact .ite (matched _) (.refl s)
  · exact .refl s

/-! ### CLEAR (R183, R184) -/

/-- R102, R184: a CLEAR leaves CLEAR pending as the frames behind it say. -/
theorem clearedBlocks_busSound {s : State} (h : s.port.rx.length ≤ receiveSlots) : (clearedBlocks s).BusSound where
  ordinary := txSound_nil.ordinary
  urgent := txSound_nil.urgent
  order := txSound_nil.order
  receive := h
  flight := txSound_nil.flight
  clear := rfl
  leaving hw := by cases hw

theorem clearStation_busSound {s : State} (h : s.port.rx.length ≤ receiveSlots) : (clearStation s).BusSound :=
  ((openLine_keepsBus ..).trans <| (queueMuster_keepsBus _).trans (settleTally_keepsBus _)).sound (clearedBlocks_busSound h)

theorem handleClear_pending (s : State) : (handleClear s).pending = s.pending := by
  have cleared : (clearStation s).pending = s.pending :=
    ((openLine_keepsBus ..).trans <| (queueMuster_keepsBus _).trans (settleTally_keepsBus _)).pending
  unfold handleClear
  split
  · exact cleared
  · exact cleared
  · split
    · exact cleared
    · rfl
  all_goals rfl

/-- R183: the head that leaves may be the last CLEAR; handling it sets CLEAR pending right. -/
theorem handleClear_popped {s : State} {f : Frame} {rest : List Frame} (hs : s.BusSound) (hr : s.port.rx = f :: rest)
    (ht : s.takesClear = true) : (handleClear (s.withPort { s.port with rx := rest })).BusSound := by
  have hrest := rest_length_le hs hr
  have cleared : (clearStation (s.withPort { s.port with rx := rest })).BusSound := clearStation_busSound hrest
  cases hst : s.condition.state with
  | active => simpa only [handleClear, State.withPort_condition, hst] using cleared
  | listening => simpa only [handleClear, State.withPort_condition, hst] using cleared
  | withdrawn =>
    simp only [handleClear, State.withPort_condition, hst]
    split
    · exact cleared
    · exact busSound_of_keptClears hrest rfl rfl hs.tx
  | reset => simp only [State.takesClear, hst, Bool.false_eq_true] at ht
  | profiling => simp only [State.takesClear, hst, Bool.false_eq_true] at ht
  | refused => simp only [State.takesClear, hst, Bool.false_eq_true] at ht

theorem exec_clearFrame_keepsBus {s t : State} (h : exec .clearFrame s = .next t) : KeepsBus s t := by
  change execClearFrame s = _ at h
  unfold execClearFrame at h
  cases h
  split
  next f rest hr =>
    split
    next hf => exact KeepsBus.finish ⟨fun hs => handleClear_popped hs hr hf.2, handleClear_pending _⟩
    · exact .refl s
  · exact .refl s

/-! ### Offering a frame, and the end of an attempt (R105 to R110) -/

/-- R105: a frame is offered only while none is in flight. -/
theorem offered_keepsBus {s : State} (h : s.offers = true) :
    KeepsBus s (s.withPort { s.port with tx := markOffered s.port.tx }) := by
  refine .of_tx rfl fun hs => hs.offered fun t ht => ?_
  simp only [State.offers, Bool.and_eq_true, Bool.not_eq_true'] at h
  simpa using List.any_eq_false.mp h.2 t ht

theorem flightLeaves_keepsBus (s : State) : KeepsBus s (s.withPort s.port.flightLeaves) :=
  .of_tx rfl fun hs => hs.filter _

/-- R106: the frame that comes out of flight stays in its place. -/
theorem flightStays_keepsBus (n : Nat) (s : State) : KeepsBus s (s.withPort (s.port.flightStays n)) := by
  refine .of_tx rfl fun hs => hs.map fun t => ?_
  split
  · exact ⟨rfl, rfl, nofun⟩
  · exact ⟨rfl, rfl, id⟩

theorem attemptFails_keepsBus (t : TxFrame) (s : State) : KeepsBus s (attemptFails t s) := by
  unfold attemptFails
  split
  · exact flightLeaves_keepsBus s
  · exact flightStays_keepsBus ..

theorem dropFrame_keepsBus (f : Frame) (s : State) : KeepsBus s (dropFrame f s) := by
  have measure (i : CopyIndex) : KeepsBus s (dropMeasure i s) := by
    unfold dropMeasure
    refine .ite (.refl s) ?_
    split
    · exact .ite (.refl s) (raise_keepsBus ..)
    · exact .refl s
  have line (n : LineNumber) (g : Nat) : KeepsBus s (dropLineFrame n g s) := by
    unfold dropLineFrame
    split
    · exact .ite (.refl s) (raise_keepsBus ..)
    · exact .refl s
  unfold dropFrame
  split
  · exact measure _
  · exact line ..
  · exact line ..
  · exact .ite (.of_eq rfl rfl) (.refl s)
  · exact raise_keepsBus ..
  · exact raise_keepsBus ..
  all_goals exact .refl s

/-- R99: a frame that a station checking frames does not spoil finds room in the receive queue. -/
theorem room_of_not_spoiled {s : State} {c : FrameClass} {right : Bool} (hc : s.checks = true)
    (h : s.spoils c right = false) : s.port.rx.length < receiveSlots := by
  simp only [State.spoils, hc, Bool.true_and, Bool.or_eq_false_iff, decide_eq_false_iff_not, Nat.not_le] at h
  exact h.1.2

/-- R100, R102: a carried frame joins a receive queue that has room; a station that is withdrawing takes none but a CLEAR and what
comes behind one. -/
theorem place_keepsBus {s : State} {f : Frame} (hroom : s.BusSound → s.port.rx.length < receiveSlots)
    (hw : s.withdrawing = true → s.port.clearPending = true ∨ f.isClear = true) :
    KeepsBus s (s.withPort (s.port.place f)) := by
  have hlen (hs : s.BusSound) : (s.port.rx ++ [f]).length ≤ receiveSlots := by
    rw [List.length_append]
    exact hroom hs
  unfold BusPort.place
  split
  next hf =>
    have htx (hs : s.BusSound) : TxSound (s.port.receiveClear f).tx :=
      hs.tx.remove (p := s.port) (fun _ => true)
    refine ⟨fun hs => ?_, rfl⟩
    exact ⟨(htx hs).ordinary, (htx hs).urgent, (htx hs).order, hlen hs, (htx hs).flight,
      by simp [BusPort.receiveClear, BusPort.clearOut, BusPort.remove, BusPort.receive, hf], nofun⟩
  next hf =>
    refine ⟨fun hs => ?_, rfl⟩
    refine ⟨hs.ordinary, hs.urgent, hs.order, hlen hs, hs.flight, ?_, fun h hc => ?_⟩
    · simpa [BusPort.receive, hf] using hs.clear
    · have hpending : s.port.clearPending = true := (hw h).resolve_right hf
      exact absurd hc (by simp [BusPort.receive, hpending])

/-- R100, R102: a station that takes its own frames checks frames. -/
theorem checks_of_takesOwn {s : State} (h : s.takesOwn = true) :
    s.checks = true ∧ (s.withdrawing = true → s.port.clearPending = true) := by
  simp only [State.takesOwn, Bool.or_eq_true, Bool.and_eq_true] at h
  rcases h with hworks | ⟨hw, hc⟩
  · simp only [State.working, Bool.and_eq_true, beq_iff_eq, Bool.not_eq_true'] at hworks
    have hnot : s.withdrawing = false := by simp [State.withdrawing, hworks]
    exact ⟨by simp [State.checks, hnot, hworks], fun h => by simp [hnot] at h⟩
  · exact ⟨by simp [State.checks, hw, hc], fun _ => hc⟩

theorem endAttempt_keepsBus (t : TxFrame) (o : AttemptOutcome) (s : State) : KeepsBus s (endAttempt t o s) := by
  have spoiled : KeepsBus s (attemptSpoiled t s) :=
    .ite (attemptFails_keepsBus ..) <| .ite (flightStays_keepsBus ..) <|
      .ite ((flightLeaves_keepsBus s).trans (enterWithdrawn_keepsBus _))
        ((flightLeaves_keepsBus s).trans ((settleSlots_keepsBus _).trans (dropFrame_keepsBus ..)))
  have carried (h : s.spoils t.frame.cls true = false) : KeepsBus s (attemptCarried t s) := by
    refine .ite ((flightLeaves_keepsBus s).trans (enterWithdrawn_keepsBus _)) ?_
    split
    next htakes =>
      obtain ⟨hchecks, hpending⟩ := checks_of_takesOwn htakes
      refine (flightLeaves_keepsBus s).trans (place_keepsBus (fun _ => ?_) fun hw => .inl (hpending hw))
      exact room_of_not_spoiled hchecks h
    · exact flightLeaves_keepsBus s
  unfold endAttempt
  split
  · exact attemptFails_keepsBus ..
  · exact attemptFails_keepsBus ..
  · split
    · exact spoiled
    next h => exact carried (by simp_all)

/-! ### A frame of another participant (R99, R100, R102, R111) -/

theorem carriedWithdrawing_keepsBus {s : State} {f : Frame} {right : Bool} (hw : s.withdrawing = true)
    (h : s.spoils f.cls right = false) : KeepsBus s (carriedWithdrawing f right s) := by
  unfold carriedWithdrawing
  split
  next hc =>
    have hchecks : s.checks = true := by simp [State.checks, hw, hc]
    exact .ite (.refl s) (place_keepsBus (fun _ => room_of_not_spoiled hchecks h) fun _ => .inl hc)
  next hc =>
    split
    next hf =>
      simp only [Bool.and_eq_true] at hf
      refine place_keepsBus (fun hs => ?_) fun _ => .inr hf.1
      rw [hs.leaving hw (by simpa using hc)]
      exact Nat.zero_lt_succ _
    · exact .refl s

theorem carryFrame_keepsBus {s : State} {f : Frame} {right : Bool} (h : s.spoils f.cls right = false) :
    KeepsBus s (carryFrame f right s) := by
  have placed (hw : ¬ s.withdrawing = true) (hstate : s.condition.state = .listening ∨ s.condition.state = .active) :
      KeepsBus s (s.withPort (s.port.place f)) := by
    have hchecks : s.checks = true := by simpa [State.checks, hw] using hstate
    exact place_keepsBus (fun _ => room_of_not_spoiled hchecks h) fun hw' => absurd hw' hw
  unfold carryFrame
  split
  next hw => exact carriedWithdrawing_keepsBus hw h
  next hw =>
    split
    · exact .refl s
    · exact .refl s
    · exact .refl s
    · exact .refl s
    next hstate => exact .ite (enterWithdrawn_keepsBus s) (placed hw (.inl hstate))
    next hstate => exact .ite (raise_keepsBus ..) (placed hw (.inr hstate))

theorem receiveFrame_keepsBus (word : ArbWord) (payload : List Byte) (check : BitVec 16) (spoiled : Bool) (s : State) :
    KeepsBus s (receiveFrame word payload check spoiled s) := by
  unfold receiveFrame
  dsimp only
  split
  · exact .refl s
  next h => exact carryFrame_keepsBus (f := ⟨word, payload⟩) (by simp_all [Frame.cls])

/-! ### Start-up, the pins and the cartridge (R40, R54, R175 to R179) -/

theorem blocksAtReset_keepsBus {s u : State} (cart : CartridgePort) (h : u.pending = s.pending) :
    KeepsBus s (blocksAtReset cart u) :=
  ⟨fun _ => resetIsSound.1.of_rx rfl rfl nofun txSound_nil, h⟩

theorem entering_keepsBus {s : State} {x : StationState} (hx : x ≠ .withdrawn) : KeepsBus s (s.entering x) := by
  refine ⟨fun hs => hs.of_rx rfl rfl (fun hw => ?_) hs.tx, rfl⟩
  have hleaving : s.port.withdrawalPending = true := by simpa [State.withdrawing, State.entering, hx] using hw
  simp [State.withdrawing, hleaving]

theorem enterProfiling_keepsBus (s : State) : KeepsBus s (enterProfiling s) := by
  unfold enterProfiling
  split
  · refine KeepsBus.trans ?_ (startNextRead_keepsBus _)
    exact (entering_keepsBus (x := .profiling) (by decide)).after rfl rfl
  · exact entering_keepsBus (by decide)

theorem receiveProfileWord_keepsBus (w : CartWord) (s : State) : KeepsBus s (receiveProfileWord w s) := by
  have read (ws : List CartWord) : KeepsBus s (profileRead ws s) :=
    .ite ((entering_keepsBus (x := .listening) (by decide)).after rfl rfl)
      ((entering_keepsBus (x := .refused) (by decide)).after rfl rfl)
  unfold receiveProfileWord
  split
  · exact .refl s
  · exact .ite (.refl s) (.ite (read _) (.of_eq rfl rfl))

theorem receiveWord_keepsBus (o : OutstandingRead) (w : CartWord) (s : State) : KeepsBus s (receiveWord o w s) := by
  have freed : KeepsBus s (s.withCartridge { s.cartridge with outstanding := none }) := .of_eq rfl rfl
  unfold receiveWord
  dsimp only
  split
  · exact freed
  · refine freed.trans ?_
    split
    · exact receiveProfileWord_keepsBus ..
    · exact (resumeShaping_keepsBus ..).after rfl rfl
    · exact (resumeBox_keepsBus _).after rfl rfl

theorem removeCartridge_keepsBus (s : State) : KeepsBus s (removeCartridge (abandonCartridgeWork s)) := by
  have abandoned : KeepsBus s (abandonCartridgeWork s) :=
    ((abandonShaping_keepsBus s).trans (abandonBox_keepsBus _)).trans (.of_eq rfl rfl)
  refine abandoned.trans ?_
  unfold removeCartridge
  split
  · exact entering_keepsBus (by decide)
  · exact enterWithdrawn_keepsBus _
  · exact raise_keepsBus ..
  all_goals exact .refl _

/-! ### Timers, traps and what is outstanding -/

theorem reportDue_keepsBus (s : State) : KeepsBus s (reportDue s) := by
  have line (u : State) (r : LineRecord) : KeepsBus u (reportLine u r) := .ite (reportTraps_keepsBus ..) (.refl u)
  have lines : KeepsBus s (s.tally.inHand.foldl reportLine s) := .foldl line _ _
  unfold reportDue
  dsimp only
  split
  · exact lines.trans (reportTraps_keepsBus ..)
  · exact lines

theorem planBoxes_keepsBus (s : State) : KeepsBus s (planBoxes s) := by
  unfold planBoxes
  split
  · exact .ite (.of_eq rfl rfl) (.refl s)
  · exact .refl s

theorem raiseCoverageTimeout_keepsBus (s : State) : KeepsBus s (raiseCoverageTimeout s) := by
  unfold raiseCoverageTimeout
  split
  · exact raise_keepsBus ..
  · exact .refl s

theorem expireVerdictWait_keepsBus (n : LineNumber) (s : State) : KeepsBus s (expireVerdictWait n s) := by
  have lose (r : LineRecord) (u : State) (m : Nat) : KeepsBus u (loseStation r u m) :=
    (raiseNamedTrap_keepsBus ..).after rfl rfl
  unfold expireVerdictWait
  dsimp only
  split
  · exact (KeepsBus.foldl (lose _) _ _).after rfl rfl
  · exact .of_eq rfl rfl

theorem raiseLongHold_keepsBus (s : State) : KeepsBus s (raiseLongHold s) := by
  unfold raiseLongHold
  split
  · exact raise_keepsBus ..
  · exact .ite (.of_eq rfl rfl) (.refl s)

/-! ### Every command -/

theorem exec_keepsBus {c : Instr} {s t : State} (h : exec c s = .next t) : KeepsBus s t := by
  have out {u : State} (e : exec c s = .next u) (hu : KeepsBus s u) : KeepsBus s t := by
    rw [h] at e
    cases e
    exact hu
  cases c with
  | powerOn => exact out rfl (blocksAtReset_keepsBus _ rfl)
  | resetLineAsserted => exact out rfl (blocksAtReset_keepsBus _ rfl)
  | resetLineReleased straps => exact out rfl (.ite ((enterProfiling_keepsBus _).after rfl rfl) (.refl s))
  | cartridgePresentFall =>
    exact out rfl (.ite (.ite (.of_eq rfl rfl) ((removeCartridge_keepsBus _).after rfl rfl)) (.refl s))
  | cartridgePresentRise => exact out rfl (.of_eq rfl rfl)
  | cartridgeReadComplete word =>
    refine out rfl ?_
    split
    · exact (receiveWord_keepsBus ..).finish
    · exact .refl s
  | frameAttemptStart =>
    refine out rfl ?_
    split
    next hoffers => exact offered_keepsBus hoffers
    · exact .refl s
  | frameAttemptEnd o =>
    refine out rfl ?_
    split
    · exact (endAttempt_keepsBus ..).finish
    · exact .refl s
  | frameReceived word payload check spoiled =>
    change execFrameReceived word payload check spoiled s = _ at h
    unfold execFrameReceived at h
    split at h
    · cases h
      exact receiveFrame_keepsBus ..
    · cases h
  | clearFrame => exact exec_clearFrame_keepsBus h
  | copyFrame => exact out rfl (takeHead_keepsBus (by decide) decodeCopy_keepsBus s)
  | cuttingResumed => exact out rfl (.guarded (resumeCutting_keepsBus s))
  | shapingStart => exact out rfl (.guarded (startShaping_keepsBus s))
  | storeWaitGranted => exact out rfl (.guarded (grantStore_keepsBus s))
  | shapingComplete => exact out rfl (.guarded (completeShaping_keepsBus s))
  | boxBuildStart => exact out rfl (.guarded (startBox_keepsBus s))
  | boxBuildComplete => exact out rfl (.guarded (completeBox_keepsBus s))
  | pendingRemainderRecord => exact out rfl (.guarded (placeRemainder_keepsBus s))
  | waitingFrameEnters => exact out rfl (.guarded (settleSlots_keepsBus s))
  | measureFrame => exact out rfl (takeHead_keepsBus (by decide) handleMeasure_keepsBus s)
  | deferredDecision => exact out rfl (.guarded (settleTally_keepsBus s))
  | deferredCopyGap => exact out rfl (.guarded (checkGapMark_keepsBus s))
  | verdictFrame => exact out rfl (takeHead_keepsBus (by decide) handleVerdict_keepsBus s)
  | trapReport => exact out rfl (.guarded (reportDue_keepsBus s))
  | musterFrame => exact out rfl (takeHead_keepsBus (by decide) handleMuster_keepsBus s)
  | noticeFrame => exact out rfl (takeHead_keepsBus (by decide) handleNotice_keepsBus s)
  | takenFrame => exact out rfl (takeHead_keepsBus (by decide) handleTaken_keepsBus s)
  | holdFrame => exact out rfl (takeHead_keepsBus (by decide) handleHold_keepsBus s)
  | releaseFrame => exact out rfl (takeHead_keepsBus (by decide) handleRelease_keepsBus s)
  | placeFrame => exact out rfl (takeHead_keepsBus (by decide) handlePlace_keepsBus s)
  | recallFrame => exact out rfl (takeHead_keepsBus (by decide) handleRecall_keepsBus s)
  | killFrame => exact out rfl (takeHead_keepsBus (by decide) handleKill_keepsBus s)
  | killEnd => exact out rfl (.guarded ((endKillIfDue_keepsBus s).trans (settleTally_keepsBus _)))
  | heldMusterRequeued => exact out rfl (.guarded (requeueHeldMuster_keepsBus s))
  | pendingAbortNotice => exact out rfl (.guarded (releasePendingNotices_keepsBus s))
  | unassignedClass => exact out rfl (takeHead_keepsBus (by decide) (fun _ u => .refl u) s)
  | coverageTimerFirstEnd => exact out rfl (.guarded ((planBoxes_keepsBus _).after rfl rfl))
  | coverageTimerSecondEnd => exact out rfl (.guarded ((raiseCoverageTimeout_keepsBus _).after rfl rfl))
  | verdictWaitExpiry =>
    refine out rfl ?_
    split
    · exact .guarded (expireVerdictWait_keepsBus ..)
    · exact .refl s
  | longHoldExpiry => exact out rfl (.guarded ((raiseLongHold_keepsBus _).after rfl rfl))

/-- R185: a command answers a next state unless it is a frame that its length field cannot describe. -/
theorem exec_wellFormed (c : Instr) (s : State) :
    (c.wellFormed = true → ∃ t, exec c s = .next t) ∧ (c.wellFormed = false → exec c s = .refused .payloadTooLong) := by
  cases c with
  | frameReceived word payload check spoiled =>
    refine ⟨fun h => ⟨_, if_pos (of_decide_eq_true h)⟩, fun h => if_neg (of_decide_eq_false h)⟩
  | _ => exact ⟨fun _ => ⟨_, rfl⟩, nofun⟩

/-- Settles O57: what enters a queue of the port enters where there is room, and a withdrawal keeps the CLEARs received alone. -/
theorem stepKeepsBusSound : Obligations.StepKeepsBusSound := by
  unfold Obligations.StepKeepsBusSound
  intro s t hs h
  unfold step at h
  split at h
  · cases h
    exact hs
  next c rest _ =>
    have hpending : (s.withPending rest).BusSound := hs.of_rx rfl rfl id hs.tx
    exact (exec_keepsBus h).sound hpending

/-- Settles O2: every arm answers a next state but that of a frame too long, and no operation touches the queue of commands. -/
theorem wellFormedCommandsComplete : Obligations.WellFormedCommandsComplete := by
  unfold Obligations.WellFormedCommandsComplete
  intro c s
  obtain ⟨hcompletes, hrefused⟩ := exec_wellFormed c s
  refine ⟨fun h => ?_, hrefused⟩
  obtain ⟨t, ht⟩ := hcompletes h
  exact ⟨t, ht, (exec_keepsBus ht).pending⟩

end Sys2Proof.Machine
end

-- ==== proofs: send attempts and frames of other participants ====
section
/-! The commands of the bus: an attempt and its end (R105 to R110, R112), a frame of another participant (R99 to R102, R111), a
waiting frame that enters (R104), and a held MUSTER that enters again (R109). -/

namespace Sys2Proof.Machine

/-! ### An attempt starts (R105) -/

theorem markOffered_held {l : List TxFrame} (h : l.all (fun x => x.heldBack) = true) : markOffered l = l := by
  induction l with
  | nil => rfl
  | cons t l ih =>
    simp only [List.all_cons, Bool.and_eq_true] at h
    rw [markOffered, if_pos h.1, ih h.2]

theorem markOffered_first {held rest : List TxFrame} {t : TxFrame} (h : held.all (fun x => x.heldBack) = true)
    (ht : t.heldBack = false) : markOffered (held ++ t :: rest) = held ++ { t with inFlight := true } :: rest := by
  induction held with
  | nil => simp [markOffered, ht]
  | cons x held ih =>
    simp only [List.all_cons, Bool.and_eq_true] at h
    rw [List.cons_append, markOffered, if_pos h.1, ih h.2, List.cons_append]

theorem exec_frameAttemptStart {s : State} (h : s.offers = true) :
    exec .frameAttemptStart s = .next (s.withPort { s.port with tx := markOffered s.port.tx }) :=
  congrArg Host.Outcome.next (if_pos h)

/-- Settles O25: the frames held back are passed over up to the first that is not. -/
theorem attemptStarts : Obligations.AttemptStarts := by
  unfold Obligations.AttemptStarts
  intro s held rest t
  refine ⟨fun ho htx hheld ht => ?_, fun ho hall => ?_, fun ho => ?_⟩
  · rw [exec_frameAttemptStart ho, htx, markOffered_first hheld ht]
  · rw [exec_frameAttemptStart ho, markOffered_held hall, State.withPort_self]
  · exact congrArg Host.Outcome.next (if_neg (by simp [ho]))

/-! ### The frame in flight (R106) -/

/-- `t` is the one frame in flight, with the frames `before` and `after` it in the transmit queue. -/
structure Offering (s : State) (before after : List TxFrame) (t : TxFrame) : Prop where
  queue  : s.port.tx = before ++ t :: after
  flight : t.inFlight = true
  before : before.all (fun x => !x.inFlight) = true
  after  : after.all (fun x => !x.inFlight) = true

/-- Where no operation waits and no frame waits, a change of the port's queues sets nothing going. -/
theorem finish_withPort {s : State} {p : BusPort} (hq : s.quiet = true) (hwait : p.waiting = []) :
    finish (s.withPort p) = s.withPort p := finish_quiet (quiet_congr hq rfl rfl rfl rfl rfl hwait)

section
variable {s : State} {before after : List TxFrame} {t : TxFrame}

theorem Offering.leaves (h : Offering s before after t) :
    s.port.flightLeaves = { s.port with tx := before ++ after } := by
  obtain ⟨hqueue, hflight, hbefore, hafter⟩ := h
  have hstay (l : List TxFrame) (hl : l.all (fun x => !x.inFlight) = true) : l.filter (fun x => !x.inFlight) = l :=
    List.filter_eq_self.mpr (List.all_eq_true.mp hl)
  simp [BusPort.flightLeaves, hqueue, List.filter_append, hflight, hstay before hbefore, hstay after hafter]

theorem Offering.stays (h : Offering s before after t) (n : Nat) :
    s.port.flightStays n = { s.port with tx := before ++ { t with inFlight := false, attempts := n } :: after } := by
  obtain ⟨hqueue, hflight, hbefore, hafter⟩ := h
  have hstay (l : List TxFrame) (hl : l.all (fun x => !x.inFlight) = true) :
      l.map (fun x => if x.inFlight then { x with inFlight := false, attempts := n } else x) = l := by
    refine (List.map_congr_left fun x hx => ?_).trans (List.map_id l)
    simp [by simpa using List.all_eq_true.mp hl x hx]
  simp [BusPort.flightStays, hqueue, hflight, hstay before hbefore, hstay after hafter]

theorem Offering.exec (h : Offering s before after t) (o : AttemptOutcome) :
    exec (.frameAttemptEnd o) s = .next (finish (endAttempt t o s)) := by
  obtain ⟨hqueue, hflight, hbefore, -⟩ := h
  have hnone : before.find? (fun x => x.inFlight) = none := by simpa using hbefore
  have hfind : s.port.tx.find? (fun x => x.inFlight) = some t := by
    rw [hqueue, List.find?_append, hnone, List.find?_cons_of_pos hflight]
    rfl
  simp only [Machine.exec, execFrameAttemptEnd, hfind]

/-- R106: an attempt whose end changes the port alone, and leaves no frame waiting, sets nothing going at a quiet station. -/
theorem Offering.exec_settled (h : Offering s before after t) {o : AttemptOutcome} {p : BusPort} (hq : s.quiet = true)
    (he : endAttempt t o s = s.withPort p) (hp : p.waiting = []) :
    Machine.exec (.frameAttemptEnd o) s = .next (s.withPort p) := by
  rw [h.exec, he, finish_withPort hq hp]

/-- R106, R107: an attempt that fails on a frame whose removal is noted takes it out of the queue. -/
theorem endAttempt_removed {o : AttemptOutcome} (ho : o = .lost ∨ o = .broken ∨ o = .whole true) (h : t.removed = true) :
    endAttempt t o s = s.withPort s.port.flightLeaves := by
  rcases ho with rfl | rfl | rfl <;> simp [endAttempt, attemptSpoiled, attemptFails, h]

/-- R106: a lost or broken attempt leaves the frame its attempt count. -/
theorem endAttempt_unsent {o : AttemptOutcome} (ho : o = .lost ∨ o = .broken) (h : t.removed = false) :
    endAttempt t o s = s.withPort (s.port.flightStays t.attempts) := by
  rcases ho with rfl | rfl <;> simp [endAttempt, attemptFails, h]

theorem endsWithdrawal_of_working (h : s.working = true) : s.endsWithdrawal t = false := by
  simp only [State.working, Bool.and_eq_true, Bool.not_eq_true'] at h
  simp [State.endsWithdrawal, h.2]

theorem endAttempt_spoiled (h : t.removed = false) (hn : t.attempts + 1 < maxSpoils) :
    endAttempt t (.whole true) s = s.withPort (s.port.flightStays (t.attempts + 1)) := by
  simp [endAttempt, attemptSpoiled, h, hn]

/-- R106, R108 to R110: the eighth spoil drops the frame; where no frame waits, the slot it frees stays free. -/
theorem endAttempt_dropped (hw : s.working = true) (hwait : s.port.waiting = []) (h : t.removed = false)
    (hn : t.attempts = 7) : endAttempt t (.whole true) s = dropFrame t.frame (s.withPort s.port.flightLeaves) := by
  simp [endAttempt, attemptSpoiled, h, hn, maxSpoils, endsWithdrawal_of_working hw,
    settleSlots_none (s := s.withPort s.port.flightLeaves) hwait]

/-- R106: a working station takes its own carried frame, its removal noted or not. -/
theorem endAttempt_carried (hw : s.working = true) (hs : s.spoils t.frame.cls true = false) (hf : t.frame.isClear = false) :
    endAttempt t (.whole false) s = s.withPort (s.port.flightLeaves.receive t.frame) := by
  have htakes : s.takesOwn = true := by simp [State.takesOwn, hw]
  simp [endAttempt, hs, attemptCarried, endsWithdrawal_of_working hw, htakes, BusPort.place, hf]
  rfl

end

/-- Settles O26: the outcome says what becomes of the frame in flight, and a quiet station does nothing more. -/
theorem attemptEnds : Obligations.AttemptEnds := by
  unfold Obligations.AttemptEnds
  intro s before after t hw _ hqueue hflight hremoved hquiet hbefore hafter
  have h : Offering s before after t := ⟨hqueue, hflight, hbefore, hafter⟩
  obtain ⟨-, -, -, -, -, hwait, -⟩ := quiet_parts hquiet
  refine ⟨fun o ho => ?_, fun hn => ?_, fun hs hf => ?_⟩
  · exact h.exec_settled hquiet ((endAttempt_unsent ho hremoved).trans (congrArg s.withPort (h.stays _))) hwait
  · exact h.exec_settled hquiet ((endAttempt_spoiled hremoved hn).trans (congrArg s.withPort (h.stays _))) hwait
  · refine h.exec_settled hquiet ((endAttempt_carried hw hs hf).trans ?_) hwait
    rw [h.leaves]
    rfl

/-! ### The end of a withdrawal (R112, R113) -/

/-- R112: the withdraw NOTICE, carried or spoiled for the eighth time, ends the withdrawal. -/
theorem endAttempt_endsWithdrawal {s : State} {t : TxFrame} {o : AttemptOutcome} (hstate : s.condition.state = .active)
    (hleaving : s.port.withdrawalPending = true) (hclear : s.port.clearPending = false) (hremoved : t.removed = false)
    (ho : o = .whole false ∨ (o = .whole true ∧ t.attempts = 7)) :
    endAttempt t o s = enterWithdrawn (s.withPort s.port.flightLeaves) := by
  have hends : s.endsWithdrawal t = true := by simp [State.endsWithdrawal, hstate, hleaving, hremoved]
  have hspoils : s.spoils t.frame.cls true = false := by
    simp [State.spoils, State.checks, State.withdrawing, hleaving, hclear]
  rcases ho with rfl | ⟨rfl, hn⟩
  · simp [endAttempt, hspoils, attemptCarried, hends]
  · simp [endAttempt, attemptSpoiled, hremoved, hn, maxSpoils, hends]

/-- R112, R172: with no frame in flight and no CLEAR waiting, the NOTICE of a withdrawal stands alone in the queue. -/
theorem withdraw_tx {s : State} (c : Cond) (cause : Nat) (hclear : s.port.clearPending = false)
    (hidle : s.port.tx.all (fun x => !x.inFlight) = true) :
    (withdraw c cause s).port.tx = [⟨withdrawFrame c cause s, false, 0, false, false, false⟩] := by
  have hempty : s.port.clearOut.tx = [] := by
    refine List.filterMap_eq_nil_iff.mpr fun x hx => ?_
    have hx : x.inFlight = false := by simpa using List.all_eq_true.mp hidle x hx
    simp [hx]
  rw [withdraw_port_eq, hclear]
  change txInsert _ s.port.clearOut.tx = _
  rw [hempty]
  rfl

/-- R112, R172: what a withdrawal that has begun leaves once its event has settled. -/
theorem finish_withdraw {s : State} (c : Cond) (cause : Nat) (hclear : s.port.clearPending = false)
    (hidle : s.port.tx.all (fun x => !x.inFlight) = true) :
    ∃ u, finish (withdraw c cause s) = u ∧ u.port.withdrawalPending = true ∧ u.readyLamp = false ∧
      u.condition.reports = [] ∧ u.tally.coverage = .idle ∧
      u.port.tx = [⟨withdrawFrame c cause s, false, 0, false, false, false⟩] := by
  refine ⟨_, finish_idle (withdraw_not_working ..), (withdraw_port c cause s).2, withdraw_not_working c cause s, ?_, ?_,
    withdraw_tx c cause hclear hidle⟩
  · change (withdraw c cause s).condition.reports = []
    rw [withdraw_condition]
  · change (withdraw c cause s).tally.coverage = .idle
    rw [withdraw_tally]

/-! ### A dropped frame (R108 to R110) -/

theorem dropFrame_notice {f : Frame} {s : State} (hf : f.cls = .notice) : dropFrame f s = s := by simp [dropFrame, hf]

/-- R109: a working station with no CLEAR pending holds the MUSTER it drops. -/
theorem dropFrame_muster {f : Frame} {s : State} (hw : s.working = true) (hclear : s.port.clearPending = false)
    (hf : f.cls = .muster) : dropFrame f s = s.withPort { s.port with
      heldMuster := some ⟨f, s.tally.openLine?.map LineRecord.number⟩ } := by
  simp [dropFrame, hf, holdMuster, State.accepts, hw, hclear]

/-- R110: a dropped RECALL or KILL begins a withdrawal with LINK LOST. -/
theorem dropFrame_recall {f : Frame} {s : State} (hw : s.working = true) (hf : f.cls = .lineRecall ∨ f.cls = .lineKill) :
    dropFrame f s = withdraw ⟨.linkLost, wordField f.payload 3, wordField f.payload 3, none,
      some ⟨f.lineNumber, numField f.payload 2 1, some (wordField f.payload 3)⟩, none⟩ 0 s := by
  rcases hf with hf | hf <;> simp only [dropFrame, hf, linkLost] <;> exact raise_withdraw hw rfl

/-- R108: a dropped VERDICT or PLACE of a line held at generation 0 raises FRAME DROPPED against it. -/
theorem dropFrame_line {f : Frame} {s : State} {r : LineRecord} (hf : f.cls = .verdict ∨ f.cls = .place)
    (hr : s.tally.line? f.lineNumber = some r) (hg : r.gen = 0) :
    dropFrame f s = raise ⟨.frameDropped, r.start, r.start, none, some ⟨r.number, 0, some r.start⟩, none⟩ s := by
  rcases hf with hf | hf <;> simp [dropFrame, hf, dropLineFrame, hr, hg, LineRecord.ref]

theorem dropFrame_noLine {f : Frame} {s : State} (hf : f.cls = .verdict ∨ f.cls = .place)
    (hr : s.tally.line? f.lineNumber = none) : dropFrame f s = s := by
  rcases hf with hf | hf <;> simp [dropFrame, hf, dropLineFrame, hr]

/-- R108: a dropped MEASURE of an item that is not killed raises FRAME DROPPED against the line of its start index. -/
theorem dropFrame_measure {f : Frame} {s : State} {n : LineNumber} {i : CopyIndex} (hf : f.cls = .measure)
    (hk : s.window.killedAt f.segStart = false) (hl : lineConcerned s f.segStart = some ⟨n, 0, some i⟩) :
    dropFrame f s = raise ⟨.frameDropped, f.segStart, f.segStart, none, some ⟨n, 0, some i⟩, none⟩ s := by
  simp [dropFrame, hf, dropMeasure, hk, hl]

theorem dropFrame_killedMeasure {f : Frame} {s : State} (hf : f.cls = .measure) (hk : s.window.killedAt f.segStart = true) :
    dropFrame f s = s := by
  simp [dropFrame, hf, dropMeasure, hk]

/-- R163: outside the kill period FRAME DROPPED against a line at generation 0 sends a RECALL and then its NOTICE. -/
theorem raise_frameDropped {s : State} {item : CopyIndex} {n : LineNumber} {i : CopyIndex} (hw : s.working = true)
    (hk : s.condition.killPeriod = none) (hheld : recallHeld s.port .lineRecall n 0 = false)
    (hrecall : s.hasRoom .recallKill .lineRecall true = true) (hnotice : s.hasRoom .notice .notice false = true) :
    raise ⟨.frameDropped, item, item, none, some ⟨n, 0, some i⟩, none⟩ s = s.withPort { s.port with
      tx := txInsert ⟨s.port.frame .notice (Notice.encode ⟨.frameDropped, n, item, i, none, 0⟩),
          false, 0, false, false, false⟩
        (txInsert ⟨s.port.frame .lineRecall (RecallMsg.encode ⟨n, 0, i, 17⟩),
          true, 0, false, false, false⟩ s.port.tx) } := by
  have hraise : raise ⟨.frameDropped, item, item, none, some ⟨n, 0, some i⟩, none⟩ s =
      sendNotice ⟨.frameDropped, n, item, i, none, 0⟩ (sendRecall .lineRecall ⟨n, 0, some i⟩ .frameDropped s) := by
    simp [raise, hw, CondCode.cls, hk, raiseFault, Cond.ref, LineRef.startIn, advanceChoices]
  have hsent := sendRecall_enters (r := ⟨n, 0, some i⟩) (k := .frameDropped) hrecall hheld
  dsimp only at hsent
  rw [entryMark_of_not_place (by rw [BusPort.frame_cls]; decide)] at hsent
  rw [hraise, hsent, sendNotice_enters]
  · rfl
  · simp only [State.hasRoom, Bool.and_eq_true, beq_iff_eq] at hnotice ⊢
    exact ⟨hnotice.1, slotFor_notice_enqueue hnotice.2⟩

/-- R163: in the kill period FRAME DROPPED begins a withdrawal with ESCALATION, whose cause is its code. -/
theorem raise_frameDropped_escalates {s : State} {item key : CopyIndex} {ext : Option Nat} {line : Option LineRef}
    {resume : Option CopyIndex} {k : LineNumber} (hw : s.working = true) (hk : s.condition.killPeriod = some k) :
    raise ⟨.frameDropped, item, key, ext, line, resume⟩ s =
      withdraw ⟨.escalation, item, key, ext, line, resume⟩ 17 s := by
  simp [raise, hw, CondCode.cls, CondCode.contributory, hk, CondCode.code]

/-- Settles O27: the withdraw NOTICE ends the withdrawal; any other frame leaves the queue, and its class says what else happens. -/
theorem attemptsEndFrames : Obligations.AttemptsEndFrames := by
  unfold Obligations.AttemptsEndFrames
  refine ⟨fun s t o hstate hleaving hclear hqueue hflight hremoved hreads ho => ?_, ?_⟩
  · have h : Offering s [] [] t := ⟨hqueue, hflight, rfl, rfl⟩
    refine ⟨enterWithdrawn (s.withPort s.port.flightLeaves), ?_, rfl, rfl, rfl, rfl, rfl, rfl, rfl, rfl, rfl, rfl, rfl⟩
    rw [h.exec, endAttempt_endsWithdrawal hstate hleaving hclear hremoved ho, finish_idle rfl]
    exact congrArg Host.Outcome.next (startNextRead_none (s := enterWithdrawn (s.withPort s.port.flightLeaves)) hreads)
  intro s gone before after t hw hclear hquiet hqueue hflight hbefore hafter hgone
  have h : Offering s before after t := ⟨hqueue, hflight, hbefore, hafter⟩
  obtain ⟨-, -, -, -, -, hwait, -⟩ := quiet_parts hquiet
  have hleaves : s.withPort s.port.flightLeaves = gone := by rw [h.leaves, hgone]
  obtain ⟨htally, hwindow, hcondition, hframe, hlines, hwait', hclear', hstation⟩ :
      gone.tally = s.tally ∧ gone.window = s.window ∧ gone.condition = s.condition ∧ gone.port.frame = s.port.frame ∧
        lineConcerned gone = lineConcerned s ∧ gone.port.waiting = s.port.waiting ∧
        gone.port.clearPending = s.port.clearPending ∧ gone.port.station = s.port.station := by
    rw [hgone]
    exact ⟨rfl, rfl, rfl, rfl, rfl, rfl, rfl, rfl⟩
  have hqueue' : gone.port.tx = before ++ after := by rw [hgone]; rfl
  have hidle : gone.port.tx.all (fun x => !x.inFlight) = true := by simp [hqueue', hbefore, hafter]
  have hworks : gone.working = true := by rw [hgone]; exact hw
  have hgoneQuiet : gone.quiet = true := by rw [hgone]; exact quiet_congr hquiet rfl rfl rfl rfl rfl hwait
  rw [hwait] at hwait'
  rw [hclear] at hclear'
  refine ⟨fun hremoved o ho => ?_, fun _ hs hf => ?_, fun hremoved hn => ?_⟩
  · rw [h.exec, endAttempt_removed ho hremoved, hleaves, finish_quiet hgoneQuiet]
  · refine (h.exec_settled hquiet (endAttempt_carried hw hs hf) hwait).trans ?_
    rw [h.leaves, hgone]
    rfl
  rw [h.exec, endAttempt_dropped hw hwait hremoved hn, hleaves]
  rw [← htally, ← hwindow, ← hcondition, ← hframe, ← hlines, ← hqueue', ← hstation]
  refine ⟨fun hf => ?_, fun hf => ?_, fun hf => ?_, fun r hf hr hg => ⟨fun hk hheld hrecall hnotice => ?_, fun k hk => ?_⟩,
    fun hf hr => ?_, fun n i hf hkilled hl hk hheld hrecall hnotice => ?_, fun hf hkilled => ?_⟩
  · rw [dropFrame_notice hf, finish_quiet hgoneQuiet]
  · rw [dropFrame_muster hworks hclear' hf]
    exact congrArg Host.Outcome.next (finish_withPort hgoneQuiet hwait')
  · rw [dropFrame_recall hworks hf]
    obtain ⟨u, hu, hpending, hlamp, hreports, hcoverage, htx⟩ := finish_withdraw _ 0 hclear' hidle
    exact ⟨u, congrArg Host.Outcome.next hu, hpending, hlamp, hreports, hcoverage, htx⟩
  · rw [dropFrame_line hf hr hg, raise_frameDropped hworks hk hheld hrecall hnotice]
    exact congrArg Host.Outcome.next (finish_withPort hgoneQuiet hwait')
  · rw [dropFrame_line hf hr hg, raise_frameDropped_escalates hworks hk]
    obtain ⟨u, hu, hpending, hlamp, hreports, -, htx⟩ := finish_withdraw _ 17 hclear' hidle
    exact ⟨u, congrArg Host.Outcome.next hu, hpending, hlamp, hreports, htx⟩
  · rw [dropFrame_noLine hf hr, finish_quiet hgoneQuiet]
  · rw [dropFrame_measure hf hkilled hl, raise_frameDropped hworks hk hheld hrecall hnotice]
    exact congrArg Host.Outcome.next (finish_withPort hgoneQuiet hwait')
  · rw [dropFrame_killedMeasure hf hkilled, finish_quiet hgoneQuiet]

/-! ### When a station spoils a frame (R99) -/

theorem not_withdrawing {s : State} (hleaving : s.port.withdrawalPending = false) (hstate : s.condition.state ≠ .withdrawn) :
    s.withdrawing = false := by
  simp [State.withdrawing, hleaving, hstate]

/-- R99: the cases in which a station that checks frames spoils one. -/
theorem spoils_iff {s : State} {c : FrameClass} {right : Bool} (h : s.checks = true) :
    s.spoils c right = true ↔ right = false ∨ 16 ≤ s.port.rx.length ∨
      (s.working = true ∧ c = .copy ∧ s.window.free < 60 * (s.port.copyFrames + 1)) := by
  simp only [State.spoils, h, State.failsReserve, Bool.true_and, Bool.or_eq_true, Bool.and_eq_true, Bool.not_eq_true',
    beq_iff_eq, decide_eq_true_eq, or_assoc, and_assoc]
  exact Iff.rfl

/-- R99: a station that does not work has no copy reserve to fail. -/
theorem spoils_iff_idle {s : State} {c : FrameClass} {right : Bool} (h : s.checks = true) (hw : s.working = false) :
    s.spoils c right = true ↔ right = false ∨ 16 ≤ s.port.rx.length := by
  simp [spoils_iff h, hw]

/-- R99: a station that checks no frame spoils none. -/
theorem spoils_unchecked {s : State} {c : FrameClass} {right : Bool} (h : s.checks = false) : s.spoils c right = false := by
  simp [State.spoils, h]

theorem checks_of_withdrawing {s : State} (h : s.withdrawing = true) : s.checks = s.port.clearPending := if_pos h

theorem checks_of_not_withdrawing {s : State} (h : s.withdrawing = false) :
    s.checks = (s.condition.state == .listening || s.condition.state == .active) := if_neg (by simp [h])

/-! ### A frame of another participant (R99, R100, R102, R111) -/

section
variable {s : State} {word : ArbWord} {payload : List Byte} {check : BitVec 16} {spoiled : Bool}

theorem exec_frameReceived (h : payload.length ≤ 63) :
    exec (.frameReceived word payload check spoiled) s = .next (receiveFrame word payload check spoiled s) := if_pos h

theorem receiveFrame_spoiled
    (h : spoiled = true ∨ s.spoils (wordClass word) (check == checkWord word payload) = true) :
    receiveFrame word payload check spoiled s = s := by
  rcases h with h | h <;> simp [receiveFrame, h]

theorem receiveFrame_carried (hspoiled : spoiled = false)
    (h : s.spoils (wordClass word) (check == checkWord word payload) = false) :
    receiveFrame word payload check spoiled s = carryFrame ⟨word, payload⟩ (check == checkWord word payload) s := by
  simp [receiveFrame, hspoiled, h]

/-- R99: in RESET, PROFILING and REFUSED a station takes no frame. -/
theorem receiveFrame_idle (hleaving : s.port.withdrawalPending = false)
    (h : s.condition.state = .reset ∨ s.condition.state = .profiling ∨ s.condition.state = .refused) :
    receiveFrame word payload check spoiled s = s := by
  have hnot : s.withdrawing = false := not_withdrawing hleaving (by rcases h with h | h | h <;> simp [h])
  unfold receiveFrame carryFrame
  simp only [hnot]
  rcases h with h | h | h <;> simp [h]

end

/-- R100: another participant's frame joins the receive queue of a station in LISTENING or ACTIVE. -/
theorem carryFrame_other {s : State} {f : Frame} {right : Bool} (hleaving : s.port.withdrawalPending = false)
    (hstate : s.condition.state = .active ∨ s.condition.state = .listening) (hf : f.sender ≠ s.port.station) :
    carryFrame f right s = s.withPort (s.port.place f) := by
  have hnot : s.withdrawing = false := not_withdrawing hleaving (by rcases hstate with h | h <;> simp [h])
  rcases hstate with h | h <;> simp [carryFrame, hnot, h, hf]

/-- R111: a frame with the station's own number makes an ACTIVE station begin a withdrawal. -/
theorem carryFrame_twin_active {s : State} {f : Frame} {right : Bool} (hleaving : s.port.withdrawalPending = false)
    (hstate : s.condition.state = .active) (hf : f.sender = s.port.station) :
    carryFrame f right s = withdraw (Cond.at .twinStation s.window.next (some s.port.station)) 0 s := by
  have hnot : s.withdrawing = false := not_withdrawing hleaving (by simp [hstate])
  have hw : s.working = true := by simp [State.working, hstate, hleaving]
  rw [← raise_withdraw hw rfl]
  simp [carryFrame, hnot, hstate, hf]

/-- R111: in LISTENING it makes the station enter WITHDRAWN. -/
theorem carryFrame_twin_listening {s : State} {f : Frame} {right : Bool} (hleaving : s.port.withdrawalPending = false)
    (hstate : s.condition.state = .listening) (hf : f.sender = s.port.station) :
    carryFrame f right s = enterWithdrawn s := by
  have hnot : s.withdrawing = false := not_withdrawing hleaving (by simp [hstate])
  simp [carryFrame, hnot, hstate, hf]

/-- Settles O28: the spoil decides whether the frame is carried, and its sender what a carried frame does. -/
theorem frameReceived : Obligations.FrameReceived := by
  unfold Obligations.FrameReceived
  intro s word payload check spoiled hlen hleaving
  rw [exec_frameReceived hlen]
  refine ⟨fun h => by rw [receiveFrame_spoiled h], fun hspoiled hspoils hstate => ?_,
    fun h => by rw [receiveFrame_idle hleaving h]⟩
  rw [receiveFrame_carried hspoiled hspoils]
  refine ⟨fun hsender hclass => ?_, fun hsender => ⟨_, rfl, fun h => ?_, fun h => ?_⟩⟩
  · have hclear : Frame.isClear ⟨word, payload⟩ = false := by simpa [Frame.isClear, Frame.cls] using hclass
    rw [carryFrame_other (f := ⟨word, payload⟩) hleaving hstate hsender, BusPort.place, hclear]
    rfl
  · rw [carryFrame_twin_active (f := ⟨word, payload⟩) hleaving h hsender]
    exact (withdraw_port ..).2
  · rw [carryFrame_twin_listening (f := ⟨word, payload⟩) hleaving h hsender]
    rfl

/-- Settles O29: the CLEAR is not spoiled, and joining the receive queue it clears the transmit queue out. -/
theorem clearCarried : Obligations.ClearCarried := by
  unfold Obligations.ClearCarried
  intro s word payload hlen hw hclass hsender hroom
  simp only [State.working, Bool.and_eq_true, beq_iff_eq, Bool.not_eq_true'] at hw
  obtain ⟨hstate, hleaving⟩ := hw
  have hchecks : s.checks = true := by
    simp [checks_of_not_withdrawing (not_withdrawing hleaving (by simp [hstate])), hstate]
  have hspoils : s.spoils (wordClass word) (checkWord word payload == checkWord word payload) = false := by
    rw [Bool.eq_false_iff, ne_eq, spoils_iff hchecks]
    simp [hclass, hroom]
  have hclear : Frame.isClear ⟨word, payload⟩ = true := by simpa [Frame.isClear, Frame.cls] using hclass
  refine ⟨s.withPort (s.port.receiveClear ⟨word, payload⟩), ?_, rfl, rfl, ?_, rfl, fun x hx => ?_, rfl, rfl⟩
  · rw [exec_frameReceived hlen, receiveFrame_carried rfl hspoils,
      carryFrame_other (f := ⟨word, payload⟩) hleaving (.inl hstate) hsender, BusPort.place, if_pos hclear]
  · simp [BusPort.receiveClear, BusPort.clearOut, BusPort.remove]
  · exact mem_clearOut (p := s.port.receive ⟨word, payload⟩) hx

/-- Settles O30: which frames a station checks, and what it spoils of them. -/
theorem spoilTable : Obligations.SpoilTable := by
  unfold Obligations.SpoilTable
  intro s c right
  refine ⟨fun hleaving => ⟨fun h => ?_, fun h => ?_, fun h => ?_⟩, fun h => ?_, fun h => ?_⟩
  · have hnot : s.withdrawing = false := not_withdrawing hleaving (by rcases h with h | h | h <;> simp [h])
    have hchecks : s.checks = false := by
      rw [checks_of_not_withdrawing hnot]
      rcases h with h | h | h <;> simp [h]
    refine ⟨spoils_unchecked hchecks, fun word payload check spoiled hlen => ?_⟩
    rw [exec_frameReceived hlen, receiveFrame_idle hleaving h]
  · have hchecks : s.checks = true := by
      simp [checks_of_not_withdrawing (not_withdrawing hleaving (by simp [h])), h]
    exact spoils_iff_idle hchecks (by simp [State.working, h])
  · have hchecks : s.checks = true := by
      simp [checks_of_not_withdrawing (not_withdrawing hleaving (by simp [h])), h]
    simp [spoils_iff hchecks, State.working, h, hleaving]
  · rcases h with h | h <;> simp [State.offers, h]
  · have hwithdrawing : s.withdrawing = true := by rcases h with h | h <;> simp [State.withdrawing, h]
    have hidle : s.working = false := by rcases h with h | h <;> simp [State.working, h]
    have hchecks := checks_of_withdrawing hwithdrawing
    exact ⟨fun hc => spoils_unchecked (hchecks.trans hc), fun hc => spoils_iff_idle (hchecks.trans hc) hidle⟩

/-! ### A waiting frame, and a held MUSTER (R104, R109) -/

/-- R104: a frame that waits alone enters next when a slot it may use is free. -/
theorem nextWaiting_one {p : BusPort} {w : WaitingFrame} {u : Bool} (hw : p.waiting = [w])
    (hs : p.slotFor w.frame.cls = some u) : p.nextWaiting = some w := by
  simp [BusPort.nextWaiting, hw, oldestWaiting, hs, lowestWord]

/-- R104: with the one waiting frame in the queue no more can enter. -/
theorem settleSlots_one {s : State} {w : WaitingFrame} {u : Bool} (hw : s.port.waiting = [w])
    (hs : s.port.slotFor w.frame.cls = some u) (hnone : (enterWaiting w s).port.waiting = []) :
    settleSlots s = enterWaiting w s := by
  have hstays (n : Nat) (t : State) (ht : t.port.waiting = []) : settleFrames n t = t := by
    cases n with
    | zero => rfl
    | succ n => simp [settleFrames, BusPort.nextWaiting, ht, oldestWaiting, lowestWord]
  change settleFrames 26 s = _
  rw [settleFrames, nextWaiting_one hw hs]
  exact hstays _ _ hnone

/-- R104: the tally unit, the NOTICE producer and the recall producer do nothing more as their waiting frame enters. -/
theorem enterWaiting_one {s : State} {w : WaitingFrame} {u : Bool} (hw : s.port.waiting = [w])
    (hs : s.port.slotFor w.frame.cls = some u)
    (hp : w.producer = .notice ∨ w.producer = .tally ∨ w.producer = .recallKill) :
    enterWaiting w s = s.withPort { s.port with
      waiting := [], tx := txInsert ⟨w.frame, u, 0, s.placement.entryMark w.frame, false, false⟩ s.port.tx } := by
  have herase : s.port.waiting.erase w = [] := by simp [hw]
  unfold enterWaiting
  rw [hs, herase]
  rcases hp with hp | hp | hp <;> rw [hp] <;> rfl

/-- Settles O31: the frame enters, and then nothing is left to do. -/
theorem waitingFrameEnters : Obligations.WaitingFrameEnters := by
  unfold Obligations.WaitingFrameEnters
  intro s w u hw hwait hslot hproducer hquiet
  have henter := enterWaiting_one hwait hslot hproducer
  have hsettle : settleSlots s = enterWaiting w s := settleSlots_one hwait hslot (by rw [henter]; rfl)
  refine congrArg Host.Outcome.next ((if_pos hw).trans ?_)
  rw [hsettle, henter]
  exact finish_withPort (s := s.withPort { s.port with waiting := [] }) hquiet rfl

/-- Settles O51: the MUSTER is due, the port has room for it, and then nothing is left to do. -/
theorem heldMusterRequeued : Obligations.HeldMusterRequeued := by
  unfold Obligations.HeldMusterRequeued
  intro s h r hw hquiet hheld hclass hopen hfirst hsince hroom
  obtain ⟨-, -, -, -, -, hwait, -⟩ := quiet_parts hquiet
  have hdue : s.musterDue = true := by simp [State.musterDue, hheld, hopen, hfirst, hsince]
  have hroom' : (s.withPort { s.port with heldMuster := none }).hasRoom .tally h.frame.cls false = true := by
    rw [hclass]
    exact hroom
  have hrequeue : requeueHeldMuster s = s.withPort { s.port with
      heldMuster := none, tx := txInsert ⟨h.frame, false, 0, false, false, false⟩ s.port.tx } := by
    rw [requeueHeldMuster, hheld]
    exact handOver_hasRoom hroom' (by rw [hclass]; decide)
  refine congrArg Host.Outcome.next ((if_pos ⟨hw, hdue⟩).trans ?_)
  rw [hrequeue]
  exact finish_withPort hquiet hwait

end Sys2Proof.Machine
end

-- ==== proofs: frames without effect ====
section
/-! Frames of an unassigned class and malformed frames (R101), and which payloads are malformed (R186). -/

namespace Sys2Proof.Machine

/-! ### Malformed payloads (R186) -/

theorem recall_parse_none (p : List Byte) : RecallMsg.parse p = none ↔ p.length < 6 ∨ 1 < numField p 2 1 := by
  unfold RecallMsg.parse
  split
  next h => exact iff_of_true rfl h
  next h => exact iff_of_false nofun h

theorem breakKind_ofCode_none (n : Nat) : BreakKind.ofCode n = none ↔ 4 < n := by
  match n with
  | 0 | 1 | 2 | 3 | 4 => simp [BreakKind.ofCode]
  | n + 5 => simp [BreakKind.ofCode]

theorem verdict_parse_none (p : List Byte) :
    VerdictMsg.parse p = none ↔ p.length < 24 ∨ 1 < numField p 2 1 ∨ 4 < numField p 7 1 := by
  have hkind := breakKind_ofCode_none (numField p 7 1)
  unfold VerdictMsg.parse
  split
  next h => exact iff_of_true rfl (by tauto)
  next h =>
    split
    next hnone => exact iff_of_true rfl (.inr (.inr (hkind.mp hnone)))
    next k hsome =>
      have hfits : ¬ 4 < numField p 7 1 := fun hlt => by simp [hkind.mpr hlt] at hsome
      exact iff_of_false nofun (by tauto)

theorem place_parse_none (p : List Byte) :
    PlaceMsg.parse p = none ↔ p.length < 6 + 8 * (numField p 5 1 % 8) ∨ 1 < numField p 2 1 ∨ numField p 5 1 % 8 = 0 ∨
      6 < numField p 5 1 % 8 := by
  unfold PlaceMsg.parse
  dsimp only
  split
  next h => exact iff_of_true rfl (by omega)
  next h => exact iff_of_false nofun (by omega)

/-- The offset field of the opportunity before opportunity `j`, of those from byte `at0` on; before the first it is `b`. -/
def offsetBefore (p : List Byte) (at0 b : Nat) : Nat → Nat
  | 0 => b
  | j + 1 => numField p (at0 + 6 * j + 1) 2

theorem offsetBefore_succ (p : List Byte) (at0 b j : Nat) :
    offsetBefore p at0 b (j + 1) = offsetBefore p (at0 + 6) (numField p (at0 + 1) 2) j := by
  cases j with
  | zero => rfl
  | succ j => simp only [offsetBefore, Nat.mul_succ, Nat.add_assoc, Nat.add_comm 6]

theorem parseOpps_length (p : List Byte) (n at0 : Nat) : (parseOpps p n at0).length = n := by
  induction n generalizing at0 with
  | zero => rfl
  | succ n ih => simp [parseOpps, ih]

/-- R186: the offsets read from a payload rise when each lies above the one before and below the item count. -/
theorem offsetsRise_parseOpps (p : List Byte) (count n at0 b : Nat) :
    offsetsRise count b (parseOpps p n at0) = true ↔ ∀ j < n,
      offsetBefore p at0 b j < numField p (at0 + 6 * j + 1) 2 ∧ numField p (at0 + 6 * j + 1) 2 < count := by
  induction n generalizing at0 b with
  | zero => simp [parseOpps, offsetsRise]
  | succ n ih =>
    rw [Nat.forall_lt_succ_left, parseOpps, offsetsRise, Bool.and_eq_true, Bool.and_eq_true, ih]
    have hnext (j : Nat) : at0 + 6 * (j + 1) = at0 + 6 + 6 * j := by omega
    simp only [offsetBefore_succ, hnext, decide_eq_true_eq]
    rfl

/-- R186: what makes the offset of opportunity `j` of a MEASURE payload wrong. -/
theorem offset_wrong_iff (p : List Byte) (count j : Nat) :
    ¬ (offsetBefore p 12 0 j < numField p (12 + 6 * j + 1) 2 ∧ numField p (12 + 6 * j + 1) 2 < count) ↔
      numField p (13 + 6 * j) 2 = 0 ∨ count ≤ numField p (13 + 6 * j) 2 ∨
        (0 < j ∧ numField p (13 + 6 * j) 2 ≤ numField p (13 + 6 * (j - 1)) 2) := by
  have hplace (i : Nat) : 12 + 6 * i + 1 = 13 + 6 * i := by omega
  rw [hplace]
  cases j with
  | zero =>
    simp only [offsetBefore]
    omega
  | succ j =>
    simp only [offsetBefore, hplace, Nat.add_sub_cancel]
    omega

theorem measure_parse_none (p : List Byte) :
    MeasureMsg.parse p = none ↔ p.length < 12 + 6 * numField p 11 1 ∨ 15 < numField p 4 1 ∨ numField p 2 2 = 0 ∨
      6 < numField p 11 1 ∨ ∃ j, j < numField p 11 1 ∧ (numField p (13 + 6 * j) 2 = 0 ∨
        numField p 2 2 ≤ numField p (13 + 6 * j) 2 ∨
        (0 < j ∧ numField p (13 + 6 * j) 2 ≤ numField p (13 + 6 * (j - 1)) 2)) := by
  have hoffsets := offsetsRise_parseOpps p (numField p 2 2) (numField p 11 1) 12 0
  unfold MeasureMsg.parse
  dsimp only
  split
  next h => exact iff_of_true rfl (by omega)
  next h =>
    have hlong : ¬ p.length < 12 + 6 * numField p 11 1 := by omega
    have hfew : ¬ 6 < numField p 11 1 := by omega
    simp only [← offset_wrong_iff, hlong, hfew, false_or]
    split
    next hformed =>
      simp only [MeasureMsg.wellFormed, Bool.and_eq_true, decide_eq_true_eq, bne_iff_ne, hoffsets] at hformed
      obtain ⟨⟨⟨hlevel, hcount⟩, -⟩, hrise⟩ := hformed
      refine iff_of_false nofun ?_
      rintro (h | h | ⟨j, hj, hwrong⟩)
      · omega
      · exact hcount h
      · exact hwrong (hrise j hj)
    next hformed =>
      refine iff_of_true rfl ?_
      by_contra hnone
      have hrise (j : Nat) (hj : j < numField p 11 1) :=
        not_not.mp fun hwrong => hnone (.inr (.inr ⟨j, hj, hwrong⟩))
      have hlevel : ¬ 15 < numField p 4 1 := fun h => hnone (.inl h)
      refine hformed ?_
      simp only [MeasureMsg.wellFormed, Bool.and_eq_true, decide_eq_true_eq, bne_iff_ne, hoffsets, parseOpps_length]
      exact ⟨⟨⟨Nat.le_of_not_lt hlevel, fun h => hnone (.inr (.inl h))⟩, Nat.le_of_not_lt hfew⟩, hrise⟩

/-! ### Frames removed with no effect (R101) -/

/-- R101: a frame on which its class acts not at all is removed, and a station quiet without it does nothing more. -/
theorem takeHead_effectless {c : FrameClass} {act : Frame → State → State} {s : State} {f : Frame} {rest : List Frame}
    (ht : s.takes = true) (hq : s.popped.quiet = true) (hr : s.port.rx = f :: rest) (hc : f.cls = c)
    (hact : ∀ u, act f u = u) : Host.Outcome.next (φ := Fault) (ρ := Refusal) (takeHead c act s) = .next s.popped := by
  have hpopped : s.withPort { s.port with rx := rest } = s.popped := by rw [State.popped, hr, List.tail_cons]
  rw [takeHead_handles hr hc ht, hact, hpopped, finish_quiet hq]

/-- Settles O32: a frame that does not parse acts on no block, and each parser fails exactly on what its form check names. -/
theorem effectlessFramesRemoved : Obligations.EffectlessFramesRemoved := by
  unfold Obligations.EffectlessFramesRemoved
  refine ⟨fun s f rest ht hq hr => ?_, fun p =>
    ⟨recall_parse_none p, verdict_parse_none p, measure_parse_none p, place_parse_none p⟩⟩
  have removed {c : FrameClass} {act : Frame → State → State} (hc : f.cls = c) (hact : ∀ u, act f u = u) :=
    takeHead_effectless ht hq hr hc hact
  refine ⟨fun hc => ?_, fun hc hp => ?_, fun hc hp => ?_, fun hc hp => ?_, fun hc hp => ?_, fun hc hp => ?_,
    fun hc hp => ?_, fun hc hp => ?_, fun hc hp => ?_⟩
  · exact removed hc fun _ => rfl
  · exact removed hc fun u => by simp [handleRecall, hp]
  · exact removed hc fun u => by simp [handleKill, hp]
  · exact removed hc fun u => by simp [handleTaken, parseTaken, hp]
  · exact removed hc fun u => by simp [handleVerdict, hp]
  · exact removed hc fun u => by simp [handleMeasure, hp]
  · exact removed hc fun u => by simp [handlePlace, hp]
  · exact removed hc fun u => by simp [handleNotice, parseNotice, hp]
  · exact removed hc fun u => by simp [handleMuster, musterFormed, hp]

end Sys2Proof.Machine
end

-- ==== proofs: what a scan leaves of a line record ====
section
/-! What the coverage scan and a MEASURE do to a line tally (R118 to R124): the scan adds spaces and thins alone, and a
segment item enters among the segments it does not overlap. -/

namespace Sys2Proof.Machine

/-! ### Items of a tally in copy order (R118) -/

theorem insertItem_perm (x : TallyItem) (l : List TallyItem) : (insertItem x l).Perm (x :: l) := by
  induction l with
  | nil => exact .refl _
  | cons y l ih =>
    unfold insertItem
    split
    · exact .refl _
    · exact (ih.cons y).trans (.swap x y l)

@[simp] theorem insertItem_length (x : TallyItem) (l : List TallyItem) : (insertItem x l).length = l.length + 1 :=
  (insertItem_perm x l).length_eq

theorem mem_insertItem {x y : TallyItem} {l : List TallyItem} : y ∈ insertItem x l ↔ y = x ∨ y ∈ l :=
  (insertItem_perm x l).mem_iff.trans List.mem_cons

theorem segmentsOf_cons (x : TallyItem) (l : List TallyItem) : segmentsOf (x :: l) = segmentsOf [x] ++ segmentsOf l := by
  cases x <;> rfl

/-- A space or a thin is no segment, wherever it enters. -/
theorem segmentsOf_insertItem_blank {x : TallyItem} (hx : x.sender? = none) (l : List TallyItem) :
    segmentsOf (insertItem x l) = segmentsOf l := by
  have hblank : segmentsOf [x] = [] := by
    cases x with
    | segment g => cases hx
    | space => rfl
    | thin => rfl
  induction l with
  | nil => exact hblank
  | cons y l ih =>
    unfold insertItem
    split
    · rw [segmentsOf_cons, hblank, List.nil_append]
    · rw [segmentsOf_cons, ih, ← segmentsOf_cons]

theorem segmentsOf_insertItem_segment (g : SegItem) (l : List TallyItem) :
    (segmentsOf (insertItem (.segment g) l)).Perm (g :: segmentsOf l) :=
  (insertItem_perm _ l).filterMap _

/-! ### What a scan keeps of a line record (R123, R124) -/

/-- What the scan leaves of a record: all but the scan, the parameters it fills in and the spaces and thins it enters. -/
structure ScanKeeps (r d : LineRecord) : Prop where
  number    : d.number = r.number
  gen       : d.gen = r.gen
  state     : d.state = r.state
  start     : d.start = r.start
  inherited : d.inherited = r.inherited
  items     : ∀ x ∈ r.tally, x ∈ d.tally
  segments  : segmentsOf d.tally = segmentsOf r.tally
  room      : r.tally.length ≤ tallyLimit → d.tally.length ≤ tallyLimit

theorem ScanKeeps.refl (r : LineRecord) : ScanKeeps r r := ⟨rfl, rfl, rfl, rfl, rfl, fun _ => id, rfl, id⟩

theorem ScanKeeps.trans {r d e : LineRecord} (h : ScanKeeps r d) (g : ScanKeeps d e) : ScanKeeps r e :=
  ⟨g.number.trans h.number, g.gen.trans h.gen, g.state.trans h.state, g.start.trans h.start,
    g.inherited.trans h.inherited, fun x hx => g.items x (h.items x hx), g.segments.trans h.segments, g.room ∘ h.room⟩

/-- A record that differs in its scan and its flags alone. -/
theorem ScanKeeps.of_scan (r : LineRecord) (c : Scan) (full : Bool) : ScanKeeps r { r with scan := c, fullRaised := full } :=
  ⟨rfl, rfl, rfl, rfl, rfl, fun _ => id, rfl, id⟩

theorem pass_keeps (r : LineRecord) (it : TallyItem) : ScanKeeps r (r.pass it) := .of_scan r _ _

/-- R122: a space or thin that the scan meets enters a tally that has room, or not at all. -/
theorem meet_keeps {r : LineRecord} {it : TallyItem} (hit : it.sender? = none) : ScanKeeps r (r.meet it).1 := by
  unfold LineRecord.meet
  split
  · exact pass_keeps ..
  · split
    next hroom =>
      refine ScanKeeps.trans (d := { r with tally := insertItem it r.tally }) ?_ (pass_keeps ..)
      exact ⟨rfl, rfl, rfl, rfl, rfl, fun x hx => mem_insertItem.mpr (.inr hx), segmentsOf_insertItem_blank hit _,
        fun _ => (insertItem_length ..).trans_le hroom⟩
    · exact .of_scan r _ _

theorem meetBlank_keeps (env : ScanEnv) {r : LineRecord} (i : CopyIndex) {it : TallyItem} (hit : it.sender? = none) :
    ScanKeeps r (r.meetBlank env i it).1 := by
  unfold LineRecord.meetBlank
  split
  · exact .of_scan r _ _
  · exact meet_keeps hit

theorem scanItems_keeps (env : ScanEnv) (skip : Nat) (l : List (CopyIndex × Item)) (r : LineRecord) :
    ScanKeeps r (scanItems env skip l r).1 := by
  induction l generalizing skip r with
  | nil => unfold scanItems; exact .of_scan r _ _
  | cons p rest ih =>
    cases skip with
    | succ skip => exact ih skip r
    | zero =>
      unfold scanItems
      split
      · exact .of_scan r _ _
      · split
        · exact .of_scan r _ _
        · split
          · exact (pass_keeps ..).trans (ih ..)
          · exact .of_scan r _ _
        · exact (meetBlank_keeps env _ rfl).trans (ih ..)
        · exact (meetBlank_keeps env _ rfl).trans (ih ..)
        · exact (ScanKeeps.of_scan r _ _).trans (ih ..)

theorem fill_keeps (w : Window) (r : LineRecord) : ScanKeeps r (r.fill w) := by
  unfold LineRecord.fill
  split
  · exact ⟨rfl, rfl, rfl, rfl, rfl, fun _ => id, rfl, id⟩
  · exact .refl r

/-- R116, R123: the open line's record as the scan leaves it. -/
theorem scanned_keeps (s : State) (r : LineRecord) : ScanKeeps r (s.scanned r).1 :=
  (fill_keeps ..).trans (scanItems_keeps ..)

/-- R123: what a scan leaves of the line records: the open line's gives way to the scanned one. -/
theorem runScan_lines (s : State) : (runScan s).tally.lines =
    match s.tally.openLine? with
    | some r => (s.tally.withOpen (s.scanned r).1).lines
    | none => s.tally.lines := by
  unfold runScan
  cases s.tally.openLine? with
  | none => rfl
  | some r =>
    dsimp only
    split
    · exact (raise_settles ..).lines
    · rfl

/-- R116: what the gap mark check leaves of the line records. -/
theorem checkGapMark_lines (s : State) : (checkGapMark s).tally.lines = s.tally.lines ∨
    ∃ r, s.tally.openLine? = some r ∧
      (checkGapMark s).tally.lines = (s.tally.mapLine r.number (fun x => { x with gapChecked := true })).lines := by
  unfold checkGapMark
  split
  next r ho =>
    split
    · exact .inr ⟨r, ho, (Settles.foldl (fun _ _ => raise_settles ..) _ _).lines⟩
    · exact .inl rfl
  · exact .inl rfl

end Sys2Proof.Machine
end

-- ==== proofs: the bounds of the line records ====
section
/-! The line records stay sound (R114, R117, R118, R168): the open line is the last record and the only one open, at most 2
lines are in hand, no tally is over its limit, and the segments of an open line are whole and do not overlap. -/

namespace Sys2Proof.Machine

/-! ### Sound records -/

/-- R118: the segments of a tally are whole and do not overlap. -/
structure WholeSegments (l : List TallyItem) : Prop where
  apart : (segmentsOf l).Pairwise (fun g h => rangesOverlap g.start g.count h.start h.count = false)
  uncut : ∀ g ∈ segmentsOf l, g.cut = none

/-- R118: what the bounds ask of one record. -/
structure LineRecord.Sound (r : LineRecord) : Prop where
  items : r.tally.length ≤ tallyLimit
  whole : r.state = .opened → WholeSegments r.tally

/-- R114, R117, R118: what the bounds ask of the records. -/
structure SoundLines (l : List LineRecord) : Prop where
  opened  : l.Pairwise (fun a _ => a.state ≠ .opened)
  inHand  : (l.filter (fun r => r.state != .opened)).length ≤ 2
  records : ∀ r ∈ l, r.Sound

/-- No record is open. -/
def NoneOpen (l : List LineRecord) : Prop := ∀ r ∈ l, r.state ≠ .opened

theorem openLine_eq_none {t : TallyUnit} : t.openLine? = none ↔ NoneOpen t.lines := by
  simp [TallyUnit.openLine?, NoneOpen]

/-- The bounds read the line records, and of the kill whether there is one. -/
theorem linesSound_iff (s : State) :
    s.LinesSound ↔ SoundLines s.tally.lines ∧ (s.condition.kill.isSome = true → NoneOpen s.tally.lines) := by
  constructor
  · intro h
    exact ⟨⟨h.opened, h.inHand, fun r hr => ⟨h.items r hr, fun ho => ⟨(h.whole r hr ho).1, (h.whole r hr ho).2⟩⟩⟩,
      fun hk => openLine_eq_none.mp (h.kill hk)⟩
  · rintro ⟨h, hk⟩
    exact ⟨h.opened, h.inHand, fun hs => openLine_eq_none.mpr (hk hs), fun r hr => (h.records r hr).items,
      fun r hr ho => ⟨((h.records r hr).whole ho).apart, ((h.records r hr).whole ho).uncut⟩⟩

theorem NoneOpen.sublist {l m : List LineRecord} (h : NoneOpen l) (hs : m.Sublist l) : NoneOpen m :=
  fun r hr => h r (hs.subset hr)

theorem NoneOpen.pairwise {l : List LineRecord} (h : NoneOpen l) : l.Pairwise (fun a _ => a.state ≠ .opened) :=
  List.Pairwise.imp_of_mem (R := fun _ _ => True) (fun ha _ _ => h _ ha) (List.pairwise_of_forall fun _ _ => trivial)

theorem NoneOpen.filter_eq {l : List LineRecord} (h : NoneOpen l) : l.filter (fun r => r.state != .opened) = l :=
  List.filter_eq_self.mpr fun r hr => by simpa using h r hr

/-- Records that go. -/
theorem SoundLines.sublist {l m : List LineRecord} (h : SoundLines l) (hs : m.Sublist l) : SoundLines m :=
  ⟨h.opened.sublist hs, (hs.filter _).length_le.trans h.inHand, fun r hr => h.records r (hs.subset hr)⟩

/-- R114: the open line stands behind the lines in hand. -/
theorem SoundLines.split {l : List LineRecord} {r : LineRecord} (h : l.Pairwise (fun a _ => a.state ≠ .opened)) (hr : r ∈ l)
    (ho : r.state = .opened) : ∃ front, l = front ++ [r] ∧ NoneOpen front := by
  obtain ⟨front, back, rfl⟩ := List.append_of_mem hr
  obtain ⟨-, hback, hfront⟩ := List.pairwise_append.mp h
  cases back with
  | nil => exact ⟨front, rfl, fun x hx => hfront x hx r List.mem_cons_self⟩
  | cons y back => exact absurd ho (List.rel_of_pairwise_cons hback List.mem_cons_self)

/-- R116: a line opens behind the lines in hand. -/
theorem SoundLines.open {l : List LineRecord} {r : LineRecord} (hn : NoneOpen l) (hlen : l.length ≤ 2)
    (hl : ∀ x ∈ l, x.Sound) (hr : r.Sound) (ho : r.state = .opened) : SoundLines (l ++ [r]) where
  opened := List.pairwise_append.mpr ⟨hn.pairwise, List.pairwise_singleton .., fun a ha _ _ => hn a ha⟩
  inHand := by
    rw [List.filter_append, hn.filter_eq]
    simpa [ho] using hlen
  records := by
    intro x hx
    rcases List.mem_append.mp hx with hx | hx
    · exact hl x hx
    · rwa [List.mem_singleton.mp hx]

/-! ### Records rewritten -/

/-- A record gives way to one that is open if and only if it was, and sound if it was. -/
structure Recast (r d : LineRecord) : Prop where
  state : d.state = .opened ↔ r.state = .opened
  sound : r.Sound → d.Sound

theorem Recast.refl (r : LineRecord) : Recast r r := ⟨.rfl, id⟩

/-- A record that keeps its tally, and stays open or not. -/
theorem Recast.of_tally {r d : LineRecord} (ht : d.tally = r.tally) (hs : d.state = .opened ↔ r.state = .opened) :
    Recast r d :=
  ⟨hs, fun h => ⟨ht ▸ h.items, fun ho => ht ▸ h.whole (hs.mp ho)⟩⟩

theorem ScanKeeps.recast {r d : LineRecord} (h : ScanKeeps r d) : Recast r d where
  state := by rw [h.state]
  sound hr := ⟨h.room hr.items, fun ho => by
    obtain ⟨hapart, huncut⟩ := hr.whole (h.state ▸ ho)
    exact ⟨h.segments ▸ hapart, h.segments ▸ huncut⟩⟩

/-- Records that are rewritten one by one. -/
theorem NoneOpen.recast {l m : List LineRecord} (h : NoneOpen l) (hm : List.Forall₂ Recast l m) : NoneOpen m := by
  induction hm with
  | nil => exact h
  | cons hx _ ih =>
    obtain ⟨hhead, htail⟩ := List.forall_mem_cons.mp h
    exact List.forall_mem_cons.mpr ⟨mt hx.state.mp hhead, ih htail⟩

theorem recast_pairwise {l m : List LineRecord} (hm : List.Forall₂ Recast l m)
    (h : l.Pairwise (fun a _ => a.state ≠ .opened)) : m.Pairwise (fun a _ => a.state ≠ .opened) := by
  induction hm with
  | nil => exact h
  | cons hx hl ih =>
    obtain ⟨hopened, hrest⟩ := List.pairwise_cons.mp h
    refine List.pairwise_cons.mpr ⟨fun y hy ho => ?_, ih hrest⟩
    obtain rfl := List.eq_nil_iff_forall_not_mem.mpr fun z hz => hopened z hz (hx.state.mp ho)
    cases hl
    cases hy

theorem recast_inHand {l m : List LineRecord} (hm : List.Forall₂ Recast l m) :
    (m.filter (fun r => r.state != .opened)).length = (l.filter (fun r => r.state != .opened)).length := by
  induction hm with
  | nil => rfl
  | cons hx _ ih => simp only [List.filter_cons, bne_iff_ne, ne_eq, hx.state]; split <;> simp [ih]

theorem recast_sound {l m : List LineRecord} (hm : List.Forall₂ Recast l m) (h : ∀ r ∈ l, r.Sound) : ∀ r ∈ m, r.Sound := by
  induction hm with
  | nil => exact h
  | cons hx _ ih =>
    obtain ⟨hhead, htail⟩ := List.forall_mem_cons.mp h
    exact List.forall_mem_cons.mpr ⟨hx.sound hhead, ih htail⟩

theorem SoundLines.recast {l m : List LineRecord} (h : SoundLines l) (hm : List.Forall₂ Recast l m) : SoundLines m :=
  ⟨recast_pairwise hm h.opened, (recast_inHand hm).trans_le h.inHand, recast_sound hm h.records⟩

theorem recast_map {f : LineRecord → LineRecord} (h : ∀ r, Recast r (f r)) (l : List LineRecord) :
    List.Forall₂ Recast l (l.map f) := by
  induction l with
  | nil => exact .nil
  | cons r l ih => exact .cons (h r) ih

theorem recast_mapLine (t : TallyUnit) (n : LineNumber) {f : LineRecord → LineRecord} (h : ∀ r, Recast r (f r)) :
    List.Forall₂ Recast t.lines (t.mapLine n f).lines :=
  recast_map (fun r => by split; exacts [h r, .refl r]) _

theorem recast_changeFirst {p : LineRecord → Bool} {f : LineRecord → LineRecord} {l : List LineRecord}
    (h : ∀ r, l.find? p = some r → Recast r (f r)) : List.Forall₂ Recast l (changeFirst p f l) := by
  induction l with
  | nil => exact .nil
  | cons r l ih =>
    unfold changeFirst
    split
    next hp => exact .cons (h r (by simp [hp])) (List.forall₂_same.mpr fun x _ => .refl x)
    next hp => exact .cons (.refl r) (ih fun x hx => h x (by simp [hp, hx]))

/-- The open line's record gives way to a scanned one. -/
theorem recast_withOpen {t : TallyUnit} {r d : LineRecord} (ho : t.openLine? = some r) (h : Recast r d) :
    List.Forall₂ Recast t.lines (t.withOpen d).lines :=
  recast_changeFirst fun x hx => by
    cases ho.symm.trans hx
    exact h

theorem changeFirst_append_single {α : Type} {p : α → Bool} (f : α → α) {l : List α} {x : α} (hl : ∀ y ∈ l, ¬ p y = true)
    (hx : p x = true) : changeFirst p f (l ++ [x]) = l ++ [f x] := by
  induction l with
  | nil => simp [changeFirst, hx]
  | cons y l ih =>
    obtain ⟨hy, hrest⟩ := List.forall_mem_cons.mp hl
    simp [changeFirst, hy, ih hrest]

/-! ### What is kept, and how operations compose -/

/-- From `s` to `t` the bounds of the line records that held still hold. -/
structure KeepsLines (s t : State) : Prop where
  sound : s.LinesSound → t.LinesSound

theorem KeepsLines.refl (s : State) : KeepsLines s s := ⟨id⟩

theorem KeepsLines.trans {s t u : State} (h : KeepsLines s t) (g : KeepsLines t u) : KeepsLines s u :=
  ⟨g.sound ∘ h.sound⟩

/-- The records are rewritten one by one, and no kill begins. -/
theorem KeepsLines.of_recast {s t : State} (hl : List.Forall₂ Recast s.tally.lines t.tally.lines)
    (hk : t.condition.kill.isSome = s.condition.kill.isSome) : KeepsLines s t := by
  refine ⟨fun h => ?_⟩
  obtain ⟨hlines, hkill⟩ := (linesSound_iff s).mp h
  exact (linesSound_iff t).mpr ⟨hlines.recast hl, fun ht => (hkill (hk ▸ ht)).recast hl⟩

/-- Records go, and no kill begins. -/
theorem KeepsLines.of_sublist {s t : State} (hl : t.tally.lines.Sublist s.tally.lines)
    (hk : t.condition.kill.isSome = s.condition.kill.isSome) : KeepsLines s t := by
  refine ⟨fun h => ?_⟩
  obtain ⟨hlines, hkill⟩ := (linesSound_iff s).mp h
  exact (linesSound_iff t).mpr ⟨hlines.sublist hl, fun ht => (hkill (hk ▸ ht)).sublist hl⟩

theorem KeepsLines.of_eq {s t : State} (hl : t.tally.lines = s.tally.lines)
    (hk : t.condition.kill.isSome = s.condition.kill.isSome) : KeepsLines s t :=
  .of_sublist (hl ▸ .refl _) hk

/-- A shared operation leaves the records and the kill. -/
theorem KeepsLines.of_settles {s t : State} (h : Settles s t) : KeepsLines s t :=
  .of_eq h.lines (congrArg Option.isSome h.steady.kill)

/-- Blocks that the bounds do not read may be replaced before an operation. -/
theorem KeepsLines.after {s t u : State} (g : KeepsLines t u) (hl : t.tally.lines = s.tally.lines)
    (hk : t.condition.kill = s.condition.kill) : KeepsLines s u :=
  (KeepsLines.of_eq hl (congrArg Option.isSome hk)).trans g

theorem KeepsLines.ite {p : Prop} [Decidable p] {s t u : State} (h : KeepsLines s t) (g : KeepsLines s u) :
    KeepsLines s (if p then t else u) := by
  split
  · exact h
  · exact g

theorem KeepsLines.foldl {α : Type} {f : State → α → State} (h : ∀ s x, KeepsLines s (f s x)) (l : List α) (s : State) :
    KeepsLines s (l.foldl f s) := by
  induction l generalizing s with
  | nil => exact .refl s
  | cons x l ih => exact (h s x).trans (ih _)

theorem KeepsLines.finish {s t : State} (h : KeepsLines s t) : KeepsLines s (finish t) :=
  h.trans (.of_settles (finish_settles t))

/-- A command that acts in some states and then settles. -/
theorem KeepsLines.guarded {p : Prop} [Decidable p] {s t : State} (h : KeepsLines s t) :
    KeepsLines s (if p then Machine.finish t else s) := .ite h.finish (.refl s)

theorem Settles.guarded_keepsLines {p : Prop} [Decidable p] {s t : State} (h : Settles s t) :
    KeepsLines s (if p then Machine.finish t else s) := .guarded (.of_settles h)

/-- A frame at the head of the receive queue. -/
theorem takeHead_keepsLines {c : FrameClass} {act : Frame → State → State} (h : ∀ f u, KeepsLines u (act f u)) (s : State) :
    KeepsLines s (takeHead c act s) := by
  rcases takeHead_cases c act s with hs | ⟨f, rest, -, -, -, hs⟩ <;> rw [hs]
  · exact .refl s
  · exact KeepsLines.finish (t := act f _) ((h f _).after rfl rfl)

/-! ### The gap mark check and the scan (R116, R123) -/

theorem checkGapMark_keepsLines (s : State) : KeepsLines s (checkGapMark s) := by
  have hk := congrArg Option.isSome (checkGapMark_steady s).kill
  rcases checkGapMark_lines s with hl | ⟨r, -, hl⟩
  · exact .of_eq hl hk
  · exact .of_recast (hl ▸ recast_mapLine _ _ fun _ => .of_tally rfl .rfl) hk

theorem runScan_keepsLines (s : State) : KeepsLines s (runScan s) := by
  refine .of_recast ?_ (congrArg Option.isSome (runScan_steady s).kill)
  rw [runScan_lines]
  split
  next r ho => exact recast_withOpen ho (scanned_keeps s r).recast
  · exact List.forall₂_same.mpr fun x _ => .refl x

/-! ### A decision (R126, R127) -/

theorem WholeSegments.sublist {l m : List TallyItem} (h : WholeSegments l) (hs : m.Sublist l) : WholeSegments m :=
  ⟨h.apart.sublist (hs.filterMap _), fun g hg => h.uncut g ((hs.filterMap _).subset hg)⟩

/-- R127: a decision drops items of the tally and cuts one. -/
theorem keptItems_length (r : LineRecord) (b : Break) : (r.keptItems b).length ≤ r.tally.length :=
  (List.length_filterMap_le ..).trans (List.length_filter_le ..)

theorem decidedAt_sound {r : LineRecord} (h : r.Sound) (b : Break) (st : Setting) : (r.decidedAt b st).Sound :=
  ⟨(keptItems_length r b).trans h.items, nofun⟩

/-- R127: the items that move into the next line are whole segments of the line decided. -/
theorem following_sound {r : LineRecord} (h : r.Sound) (ho : r.state = .opened) (b : Break) (base : Nat) :
    (r.following b base).Sound :=
  ⟨(List.length_filter_le ..).trans h.items, fun _ => (h.whole ho).sublist List.filter_sublist⟩

/-- R127: the records of a decision: the open one is decided, its placements perhaps carried, and the next line opens behind. -/
theorem decideLine_lines (r : LineRecord) (p : LineParams) (s : State) :
    ∃ (b : Break) (st : Setting) (c : Bool), (decideLine r p s).tally.lines =
      ((s.tally.withOpen (r.decidedAt b st)).mapLine r.number (fun x => { x with placed := c })).lines ++
        [r.following b p.base] := by
  unfold decideLine
  extract_lets b st d s1 s2 lost s3 s4 s5 s6 s7
  have h3 : Settles s1 s3 := (cutAtBreak_settles ..).trans (handOver_settles ..)
  have h7 : Settles s4 s7 := (raiseOverset_settles ..).trans <| (raiseLoose_settles ..).trans <|
    (Settles.foldl (fun _ _ => raise_settles ..) _ _).trans (Settles.foldl (fun _ _ => compareVerdict_settles ..) _ _)
  have hlast := h7.trans (Settles.ite (p := s7.shaper.holdsIn d = true) (checkWaitingStore_settles s7) (.refl s7))
  refine ⟨b, st, (s3.placeStateOf d st).carried, ?_⟩
  calc _ = s4.tally.lines := hlast.lines
    _ = (placeDecided d st s3).tally.lines ++ [r.following b p.base] := by
      rw [openLine_lines, (pump_settles _).lines]
    _ = _ := by
      unfold TallyUnit.mapLine
      rw [← unfence_lines (s.tally.withOpen d) r.number]
      exact congrArg (List.map _ · ++ _) h3.lines

/-- R117, R127: a decision made while fewer than 2 lines are in hand. -/
theorem decideLine_keepsLines {r : LineRecord} {p : LineParams} {s : State} (ho : s.tally.openLine? = some r)
    (hmay : s.tally.mayDecide = true) : KeepsLines s (decideLine r p s) := by
  refine ⟨fun h => ?_⟩
  obtain ⟨hlines, hkill⟩ := (linesSound_iff s).mp h
  obtain ⟨hmem, hopen⟩ := openLine_mem ho
  obtain ⟨front, hfront, hnone⟩ := SoundLines.split hlines.opened hmem hopen
  obtain ⟨b, st, c, hdecided⟩ := decideLine_lines r p s
  have hwith : (s.tally.withOpen (r.decidedAt b st)).lines = front ++ [r.decidedAt b st] := by
    unfold TallyUnit.withOpen
    rw [hfront]
    exact changeFirst_append_single _ (fun y hy => by simpa using hnone y hy) (by simpa using hopen)
  have hsound := hlines.records r hmem
  have hlen : front.length < 2 := by
    have hmay' : (s.tally.lines.filter (fun r => r.state != .opened)).length < 2 := of_decide_eq_true hmay
    rw [hfront, List.filter_append, hnone.filter_eq] at hmay'
    simpa [hopen] using hmay'
  have hnokill : s.condition.kill.isSome ≠ true := fun hk => hkill hk r hmem hopen
  have hall : NoneOpen (front ++ [r.decidedAt b st]) := by
    intro x hx
    rcases List.mem_append.mp hx with hx | hx
    · exact hnone x hx
    · rw [List.mem_singleton.mp hx]
      nofun
  refine (linesSound_iff _).mpr ⟨?_, fun hk => absurd ((decideLine_steady r p s).kill ▸ hk) hnokill⟩
  have hplaced := recast_mapLine (s.tally.withOpen (r.decidedAt b st)) r.number (f := fun x => { x with placed := c })
    fun x => .of_tally rfl .rfl
  rw [hwith] at hplaced
  rw [hdecided]
  refine .open (hall.recast hplaced) ?_ (recast_sound hplaced fun y hy => ?_) (following_sound hsound hopen ..) rfl
  · rw [← hplaced.length_eq]
    simpa using hlen
  rcases List.mem_append.mp hy with hy | hy
  · exact hlines.records y (hfront ▸ List.mem_append_left _ hy)
  · rw [List.mem_singleton.mp hy]
    exact decidedAt_sound hsound b st

theorem decideIfDue_keepsLines (s : State) : KeepsLines s (decideIfDue s) := by
  unfold decideIfDue
  split
  next r ho =>
    split
    · split
      next h => exact decideLine_keepsLines ho h.2.2
      · exact .refl s
    · exact .refl s
  · exact .refl s

theorem tallyRound_keepsLines (s : State) : KeepsLines s (tallyRound s) :=
  (checkGapMark_keepsLines s).trans <| (runScan_keepsLines _).trans (decideIfDue_keepsLines _)

theorem settleTally_keepsLines (s : State) : KeepsLines s (settleTally s) := by
  have rounds := (tallyRound_keepsLines s).trans <| (tallyRound_keepsLines _).trans (tallyRound_keepsLines _)
  unfold settleTally
  exact .ite (.ite (rounds.trans (.of_settles (timeCoverage_settles ..))) rounds) (.refl s)

/-! ### MEASURE (R119 to R122) -/

theorem rangesOverlap_comm (a : CopyIndex) (n : Nat) (b : CopyIndex) (m : Nat) :
    rangesOverlap a n b m = rangesOverlap b m a n := by
  simp [rangesOverlap, Bool.or_comm]

theorem mem_segmentsOf {g : SegItem} {l : List TallyItem} : g ∈ segmentsOf l ↔ .segment g ∈ l := by
  unfold segmentsOf
  rw [List.mem_filterMap]
  constructor
  · rintro ⟨x, hx, h⟩
    cases x with
    | segment y =>
      cases h
      exact hx
    | space => cases h
    | thin => cases h
  · exact fun h => ⟨_, h, rfl⟩

theorem wholeSegments_nil : WholeSegments [] := ⟨.nil, List.forall_mem_nil _⟩

/-- R118: a whole segment enters among whole segments that it does not overlap. -/
theorem WholeSegments.insert {l : List TallyItem} {g : SegItem} (h : WholeSegments l) (hcut : g.cut = none)
    (hfree : ∀ x ∈ l, x.overlaps g = false) : WholeSegments (insertItem (.segment g) l) := by
  have hperm := segmentsOf_insertItem_segment g l
  refine ⟨?_, fun y hy => ?_⟩
  · refine (hperm.pairwise_iff fun {a b} hab => (rangesOverlap_comm ..).trans hab).mpr
      (List.pairwise_cons.mpr ⟨fun y hy => ?_, h.apart⟩)
    have hrange : y.range = y.count := by rw [SegItem.range, h.uncut y hy]
    have hy' := hfree _ (mem_segmentsOf.mp hy)
    rw [rangesOverlap_comm, ← hrange]
    exact hy'
  · rcases List.mem_cons.mp (hperm.mem_iff.mp hy) with rfl | hy
    · exact hcut
    · exact h.uncut y hy

theorem enter_sound {r : LineRecord} {g : SegItem} (h : r.Sound) (hcut : g.cut = none)
    (hfree : ∀ x ∈ r.tally, x.overlaps g = false) : (r.enter g).Sound := by
  unfold LineRecord.enter
  split
  next hroom => exact ⟨(insertItem_length ..).trans_le hroom, fun ho => (h.whole ho).insert hcut hfree⟩
  · exact h

theorem enter_state (r : LineRecord) (g : SegItem) : (r.enter g).state = r.state := by
  unfold LineRecord.enter
  split <;> rfl

theorem rewind_rest (w : Window) (r : LineRecord) (i : CopyIndex) :
    (r.rewind w i).tally = r.tally ∧ (r.rewind w i).state = r.state := by
  unfold LineRecord.rewind
  split <;> exact ⟨rfl, rfl⟩

/-- The record that a MEASURE belongs to gives way to another. -/
theorem changeLine_keepsLines {s : State} {r : LineRecord} {f : LineRecord → LineRecord} (h : Recast r (f r)) :
    KeepsLines s (s.withTally (s.tally.changeLine r f)) := by
  refine .of_recast (recast_changeFirst fun x hx => ?_) rfl
  obtain rfl : x = r := by simpa using List.find?_some hx
  exact h

/-- R120: a segment enters where it overlaps no item. -/
theorem enterSegment_keepsLines {r : LineRecord} {g : SegItem} (hcut : g.cut = none)
    (hfree : ∀ x ∈ r.tally, x.overlaps g = false) (s : State) : KeepsLines s (enterSegment r g s) := by
  unfold enterSegment
  refine .ite (changeLine_keepsLines ⟨by rw [enter_state], fun h => enter_sound h hcut hfree⟩) (.ite (.refl s) ?_)
  exact (changeLine_keepsLines (.of_tally rfl .rfl)).trans (.of_settles (raise_settles ..))

/-- R121: a segment replaces the items it overlaps. -/
theorem replaceSegments_keepsLines (r : LineRecord) {g : SegItem} (hcut : g.cut = none) (old : List TallyItem) (s : State) :
    KeepsLines s (replaceSegments r g old s) := by
  unfold replaceSegments
  refine .ite (.refl s) (changeLine_keepsLines ⟨?_, fun h => enter_sound ?_ hcut ?_⟩)
  · rw [enter_state, ← (rewind_rest s.window r ((old.head?.map TallyItem.start).getD g.start)).2]
  · exact ⟨(List.length_filter_le ..).trans h.items, fun ho =>
      (h.whole ((rewind_rest ..).2 ▸ ho)).sublist List.filter_sublist⟩
  · intro x hx
    simpa using (List.mem_filter.mp hx).2

theorem takeMeasure_keepsLines (r : LineRecord) {g : SegItem} (hcut : g.cut = none) (s : State) :
    KeepsLines s (takeMeasure r g s) := by
  unfold takeMeasure
  dsimp only
  split
  · exact .ite (.of_settles (raise_settles ..)) (.refl s)
  · split
    next hown =>
      exact enterSegment_keepsLines hcut (fun x hx => by simpa using List.filter_eq_nil_iff.mp hown x hx) s
    · refine .ite (replaceSegments_keepsLines r hcut _ s) ?_
      unfold compareSegment
      exact .ite (.refl s) (.of_settles (raise_settles ..))

theorem handleMeasure_keepsLines (f : Frame) (s : State) : KeepsLines s (handleMeasure f s) := by
  have route (m : MeasureMsg) (u : State) : KeepsLines u (routeMeasure f.sender m u) := by
    unfold routeMeasure
    split
    · split
      · exact takeMeasure_keepsLines _ rfl u
      · exact .refl u
    · exact .refl u
  have restart : s.tally.restartCoverage.lines = s.tally.lines := by
    unfold TallyUnit.restartCoverage
    split <;> rfl
  unfold handleMeasure
  split
  · exact .ite (((route ..).trans (settleTally_keepsLines _)).after restart rfl) (.refl s)
  · exact .refl s

/-! ### PLACE, HOLD and RELEASE (R115, R149, R151 to R155) -/

theorem trySend_recast (r : LineRecord) : Recast r r.trySend := by
  unfold LineRecord.trySend
  split
  next h => exact .of_tally rfl (iff_of_false nofun (by rw [h.1]; nofun))
  · exact .refl r

theorem trySendLine_keepsLines (n : LineNumber) (s : State) : KeepsLines s (trySendLine n s) :=
  .of_recast (recast_mapLine s.tally n trySend_recast) rfl

theorem handlePlace_keepsLines (f : Frame) (s : State) : KeepsLines s (handlePlace f s) := by
  have placed (n : LineNumber) (u : State) :
      KeepsLines u (u.withTally (u.tally.mapLine n (fun r => { r with placed := true }))) :=
    .of_recast (recast_mapLine _ _ fun _ => .of_tally rfl .rfl) rfl
  have carry (m : PlaceMsg) : KeepsLines s (carryPlace m s) := by
    unfold carryPlace
    split
    · refine .ite (.ite ?_ (.of_eq rfl rfl)) (.refl s)
      exact ((placed ..).trans (trySendLine_keepsLines ..)).after rfl rfl
    · exact .refl s
  unfold handlePlace
  split
  · exact .ite (carry _) (.refl s)
  · exact .refl s

theorem applyHold_keepsLines (s : State) : KeepsLines s (applyHold s) := by
  unfold applyHold replaceLines
  split
  · exact .of_eq rfl rfl
  · exact .of_eq rfl rfl
  · refine KeepsLines.trans ?_ (.of_settles (settleSlots_settles _))
    refine .of_recast (recast_map (fun r => ?_) s.tally.lines) rfl
    split
    · exact .of_tally rfl .rfl
    · exact .refl r

theorem handleHold_keepsLines (f : Frame) (s : State) : KeepsLines s (handleHold f s) :=
  .ite (.refl s) (.ite ((applyHold_keepsLines _).after rfl rfl) (.of_eq rfl rfl))

theorem applyRelease_keepsLines (s : State) : KeepsLines s (applyRelease s) := by
  unfold applyRelease
  split
  · exact .of_eq rfl rfl
  · exact .of_eq rfl rfl
  · exact (KeepsLines.of_settles (pump_settles _)).after rfl rfl

theorem handleRelease_keepsLines (f : Frame) (s : State) : KeepsLines s (handleRelease f s) :=
  .ite (.ite ((applyRelease_keepsLines _).after rfl rfl) (.of_eq rfl rfl)) (.refl s)

/-! ### Verdicts and joining (R132, R181) -/

theorem enrol_lines (t : TallyUnit) (n : Nat) : (t.enrol n).lines = t.lines := by
  unfold TallyUnit.enrol
  split <;> rfl

theorem store_recast (v : VerdictSeen) (r : LineRecord) : Recast r (r.store v) := by
  unfold LineRecord.store
  dsimp only
  split
  · exact .of_tally rfl .rfl
  · exact .refl r

/-- R131, R171: the kill in progress outlasts the kill period's end. -/
theorem kill_of_endPeriod {p : Prop} [Decidable p] (c : ConditionUnit) :
    (if p then { c with killPeriod := none } else c : ConditionUnit).kill = c.kill := by
  split <;> rfl

theorem ownVerdictCarried_keepsLines (r : LineRecord) (s : State) : KeepsLines s (ownVerdictCarried r s) := by
  unfold ownVerdictCarried
  refine KeepsLines.trans ?_ (KeepsLines.of_settles (reportTraps_settles ..))
  refine KeepsLines.trans ?_ (trySendLine_keepsLines ..)
  exact .of_recast (recast_mapLine s.tally r.number fun _ => .of_tally rfl .rfl)
    (congrArg Option.isSome (kill_of_endPeriod _))

theorem takeVerdict_keepsLines (n : Nat) (m : VerdictMsg) (s : State) : KeepsLines s (takeVerdict n m s) := by
  have matched (r : LineRecord) : KeepsLines s (matchVerdict r n m s) := by
    have stored : KeepsLines s (s.withTally (s.tally.mapLine r.number (fun x => x.store ⟨n, m.gen, m.figures⟩))) :=
      .of_recast (recast_mapLine _ _ (store_recast _)) rfl
    unfold matchVerdict
    exact .ite (.ite stored ((stored.trans (.of_settles (compareVerdict_settles ..))).trans
      (.ite (ownVerdictCarried_keepsLines ..) (.refl _)))) (.ite (.refl s) (.of_settles (raise_settles ..)))
  unfold takeVerdict compareTaken
  refine .ite (.refl s) ?_
  split
  · exact matched _
  · split
    · exact .ite (.of_settles (raiseNamedTrap_settles ..)) (.refl s)
    · split
      · exact .ite (.of_settles (raise_settles ..)) (.refl s)
      · exact .refl s

/-- R116: a line that opens with no items, where no record is. -/
theorem linesSound_opened {s t : State} {r : LineRecord} (hl : s.tally.lines = []) (hk : s.condition.kill = none)
    (htally : r.tally = []) (ho : r.state = .opened) (h : KeepsLines (openLine r s) t) : t.LinesSound := by
  refine h.sound ((linesSound_iff _).mpr ⟨?_, fun hs => ?_⟩)
  · rw [openLine_lines, hl]
    have hr : r.Sound := ⟨by simp [htally], fun _ => htally ▸ wholeSegments_nil⟩
    exact SoundLines.open (List.forall_mem_nil _) (Nat.zero_le _) (List.forall_mem_nil _) hr ho
  · rw [(openLine_steady r s).kill, hk] at hs
    cases hs

theorem joinStation_linesSound (n : LineNumber) (e : CopyIndex) (w : Window) (s : State) :
    (joinStation n e w s).LinesSound := by
  have hold (u : State) : KeepsLines u (applyHoldAtEntry u) :=
    .ite ((applyHold_keepsLines _).after rfl rfl) (.refl u)
  have after (u : State) : KeepsLines u (settleTally (resumeCutting (queueMuster (applyHoldAtEntry u)))) :=
    (hold u).trans <| (KeepsLines.of_settles (queueMuster_settles _)).trans <|
      (KeepsLines.of_settles (resumeCutting_settles _)).trans (settleTally_keepsLines _)
  exact linesSound_opened (s := joinedAt e w s) rfl rfl rfl rfl (after _)

theorem handleVerdict_keepsLines (f : Frame) (s : State) : KeepsLines s (handleVerdict f s) := by
  have offer (m : VerdictMsg) (u : State) : KeepsLines u (offerJoin m u) := by
    unfold offerJoin
    refine .ite ?_ (.refl u)
    split
    · exact ⟨fun _ => joinStation_linesSound ..⟩
    · exact .refl u
  unfold handleVerdict
  split
  · exact .ite ((takeVerdict_keepsLines ..).after (enrol_lines ..) rfl) ((offer ..).after (enrol_lines ..) rfl)
  · exact .refl s

/-! ### Lines taken (R136) -/

theorem takeLine_kill (s : State) (r : LineRecord) : (takeLine s r).condition.kill = s.condition.kill := by
  have freed (u : State) : Settles u (reportTraps r.number r.spans (settleFreed (freeSegments (r.endIdx.getD r.start) u))) :=
    (freeSegments_settles ..).trans <| (settleFreed_settles _).trans (reportTraps_settles ..)
  exact (kill_of_endPeriod _).trans (freed _).steady.kill

theorem takeLine_keepsLines (s : State) (r : LineRecord) : KeepsLines s (takeLine s r) := by
  refine .of_sublist ?_ (congrArg Option.isSome (takeLine_kill s r))
  rw [(takeLine_tally s r).1]
  exact List.filter_sublist

theorem handleTaken_keepsLines (f : Frame) (s : State) : KeepsLines s (handleTaken f s) := by
  unfold handleTaken
  split
  · exact .ite ((KeepsLines.foldl takeLine_keepsLines _ s).trans (settleTally_keepsLines _)) (.refl s)
  · exact .refl s

/-! ### The first recall (R137, R165) -/

/-- The records before the first of its number are those a recall leaves. -/
theorem takeWhile_of_find? {l : List LineRecord} {r : LineRecord} (hr : l.find? (fun x => x.number == r.number) = some r) :
    ∃ back, l = l.takeWhile (fun x => x.number != r.number) ++ r :: back := by
  obtain ⟨-, front, back, rfl, hfront⟩ := List.find?_eq_some_iff_append.mp hr
  have hbefore : (front ++ r :: back).takeWhile (fun x => x.number != r.number) = front := by
    refine (List.takeWhile_append_of_pos hfront).trans ?_
    simp
  exact ⟨back, by rw [hbefore]⟩

/-- R137: of the records the recalled line's comes back open, behind those before it. -/
theorem recalledLines_sound {l : List LineRecord} {r : LineRecord} (h : SoundLines l)
    (hr : l.find? (fun x => x.number == r.number) = some r) : SoundLines (recalledLines r l) := by
  have hbefore : (l.takeWhile (fun x => x.number != r.number)).Sublist l := List.takeWhile_sublist _
  have hnone : NoneOpen (l.takeWhile (fun x => x.number != r.number)) := by
    obtain ⟨back, hback⟩ := takeWhile_of_find? hr
    have hopened := h.opened
    rw [hback] at hopened
    exact fun x hx => (List.pairwise_append.mp hopened).2.2 x hx r List.mem_cons_self
  refine .open hnone ?_ (h.sublist hbefore).records ⟨Nat.zero_le _, fun _ => wholeSegments_nil⟩ rfl
  rw [← hnone.filter_eq]
  exact (h.sublist hbefore).inHand

/-- R165: a recall releases the lines after the recalled one, with no kill in progress. -/
theorem recallBlocks_keepsLines {r : LineRecord} {s : State} (hl : s.tally.line? r.number = some r)
    (hk : s.condition.kill = none) : KeepsLines s (recallBlocks r s) := by
  have cuts (u : State) : Settles u (undoCuts r.number u) :=
    (Settles.ite (abandonShaping_settles _) (.refl _)).trans (withShaper_settles ..)
  refine KeepsLines.trans ?_ (.of_settles (cuts _))
  refine ⟨fun h => (linesSound_iff _).mpr ⟨recalledLines_sound ((linesSound_iff s).mp h).1 hl, fun hs => ?_⟩⟩
  simp [hk] at hs

theorem publish_settles (s : State) (x : Published) : Settles s (publish s x) := by
  cases x with
  | own r => exact publishRecord_settles ..
  | box b => exact publishBox_settles ..

theorem firstRecall_keepsLines {r : LineRecord} {s : State} (hl : s.tally.line? r.number = some r)
    (hk : s.condition.kill = none) : KeepsLines s (firstRecall r s) :=
  (recallBlocks_keepsLines hl hk).trans <| (KeepsLines.of_settles (settleFreed_settles _)).trans <|
    (KeepsLines.of_settles (.foldl publish_settles _ _)).trans <|
      (KeepsLines.of_settles (checkWaitingStore_settles _)).trans (settleTally_keepsLines _)

/-! ### Kills (R168, R169) -/

/-- R168: a kill leaves no line open. -/
theorem killBlocks_keepsLines (n : LineNumber) (start : CopyIndex) (s : State) : KeepsLines s (killBlocks n start s) := by
  refine KeepsLines.trans ?_ (.of_settles (killSegments_settles ..))
  refine ⟨fun h => (linesSound_iff _).mpr ⟨((linesSound_iff s).mp h).1.sublist List.filter_sublist, fun _ r hr => ?_⟩⟩
  have hr' := (List.mem_filter.mp hr).2
  simp only [Bool.and_eq_true, bne_iff_ne] at hr'
  exact hr'.2

/-- R169: the kill ends and the next line opens behind the lines in hand, none of which is open. -/
theorem endKill_keepsLines {k : KillInProgress} {s : State} (hk : s.condition.kill = some k) (p : CopyIndex) :
    KeepsLines s (endKill k p s) := by
  have released (u : State) : KeepsLines u ((releasePendingNotices u).withWindow (releasePendingNotices u).window.purge) :=
    (KeepsLines.of_settles (releasePendingNotices_settles u)).trans (.of_eq rfl rfl)
  refine KeepsLines.trans ?_ (released _)
  refine ⟨fun h => ?_⟩
  obtain ⟨hlines, hkill⟩ := (linesSound_iff s).mp h
  have hnone : NoneOpen s.tally.lines := hkill (by simp [hk])
  refine (linesSound_iff _).mpr ⟨?_, fun hs => ?_⟩
  · rw [openLine_lines]
    refine .open hnone ?_ hlines.records ⟨Nat.zero_le _, fun _ => wholeSegments_nil⟩ rfl
    exact hnone.filter_eq ▸ hlines.inHand
  · rw [(openLine_steady ..).kill] at hs
    cases hs

theorem endKillIfDue_keepsLines (s : State) : KeepsLines s (endKillIfDue s) := by
  unfold endKillIfDue
  split
  next k hk =>
    split
    · exact endKill_keepsLines hk _
    · exact .of_eq rfl rfl
  · exact .refl s

theorem startKill_keepsLines (n : LineNumber) (start : CopyIndex) (s : State) : KeepsLines s (startKill n start s) :=
  (killBlocks_keepsLines ..).trans <| (KeepsLines.of_settles (settleFreed_settles _)).trans <|
    (endKillIfDue_keepsLines _).trans (settleTally_keepsLines _)

/-! ### RECALL and KILL (R164, R167) -/

/-- R164: with a kill in progress no line is open, so a first recall finds none in progress. -/
theorem matchRecall_keepsLines (n : Nat) (m : RecallMsg) (s : State) : KeepsLines s (matchRecall n m s) := by
  have first {r : LineRecord} (hl : s.tally.line? m.line = some r) (hb : ¬ s.beforeKill r = true) :
      KeepsLines s (firstRecall r s) := by
    refine ⟨fun h => ?_⟩
    have hmem : r ∈ s.tally.lines := List.mem_of_find?_eq_some hl
    have hnumber : r.number = m.line := by simpa using List.find?_some hl
    have hk : s.condition.kill = none := by
      by_contra hk
      have hsome : s.condition.kill.isSome = true := Option.isSome_iff_ne_none.mpr hk
      exact hb (by simp [State.beforeKill, hsome, ((linesSound_iff s).mp h).2 hsome r hmem])
    exact (firstRecall_keepsLines (hnumber ▸ hl) hk).sound h
  unfold matchRecall lateRecall
  refine .ite (.ite (.of_settles (raiseNamedTrap_settles ..)) (.refl s)) ?_
  split
  · exact .refl s
  next r hl =>
    refine .ite (.refl s) (.ite (startKill_keepsLines ..) (.ite (.refl s) ?_))
    split
    · exact startKill_keepsLines ..
    next hb => exact first hl hb

theorem handleRecall_keepsLines (f : Frame) (s : State) : KeepsLines s (handleRecall f s) := by
  unfold handleRecall
  split
  · exact .ite (matchRecall_keepsLines ..) (.refl s)
  · exact .refl s

theorem handleKill_keepsLines (f : Frame) (s : State) : KeepsLines s (handleKill f s) := by
  have matched (m : RecallMsg) : KeepsLines s (matchKill m s) := by
    unfold matchKill
    refine .ite (.refl s) ?_
    split
    · exact .refl s
    · exact .ite (startKill_keepsLines ..) (.refl s)
  unfold handleKill
  split
  · exact .ite (matched _) (.refl s)
  · exact .refl s

/-! ### Copy (R2, R10, R18) -/

/-- R15: a PARA that joins belongs to a kill in progress, and begins none. -/
theorem noteJoinedPara_keepsLines (p : CopyIndex) (s : State) : KeepsLines s (noteJoinedPara p s) := by
  refine KeepsLines.trans ?_ (.of_settles (queueNoticesAt_settles ..))
  exact .of_eq rfl (Option.isSome_map ..)

theorem completeItem_keepsLines (sender : Nat) (body : ItemBody) (s : State) : KeepsLines s (completeItem sender body s) := by
  unfold completeItem
  extract_lets s1 s2 s3
  have h1 : KeepsLines s s1 := .ite (.of_eq rfl rfl) (.refl s)
  have h2 : KeepsLines s1 s2 := by
    refine KeepsLines.trans (t := joinWindow body s1) (.of_eq rfl rfl) ?_
    exact .ite (.of_settles (raise_settles ..)) (.refl _)
  have h3 : KeepsLines s2 s3 := .ite (noteJoinedPara_keepsLines ..) (.refl _)
  exact h1.trans <| h2.trans <| h3.trans <| (endKillIfDue_keepsLines _).trans <|
    (KeepsLines.of_settles (resumeCutting_settles _)).trans (settleTally_keepsLines _)

theorem decodeBytes_keepsLines (sender : Nat) (bs : List Byte) (s : State) : KeepsLines s (decodeBytes sender bs s) := by
  induction bs generalizing s with
  | nil => exact .refl s
  | cons b rest ih =>
    unfold decodeBytes
    refine .ite ?_ (.refl s)
    split
    · exact (ih _).after rfl rfl
    · exact ((completeItem_keepsLines ..).trans (ih _)).after rfl rfl

theorem decodeCopy_keepsLines (f : Frame) (s : State) : KeepsLines s (decodeCopy f s) := by
  have mark (p : CopyIndex) (g : GapNote) (empty : Bool) (u : State) : KeepsLines u (placeGapMark p g empty u) :=
    .ite (.of_eq rfl rfl) (.ite (.of_eq rfl rfl) (.of_eq rfl rfl))
  have gap (empty : Bool) (u : State) : KeepsLines u (activeGap f.sender empty u) := by
    unfold activeGap
    dsimp only
    split
    · exact .of_settles (raise_settles ..)
    · split
      · exact .refl u
      · split
        · exact .of_settles (raise_settles ..)
        · exact mark ..
  have check : KeepsLines s (checkSequence f.sender f.payload s) := by
    unfold checkSequence
    exact .ite (.of_eq rfl rfl) (.ite (.of_eq rfl rfl) ((gap ..).after rfl rfl))
  exact .ite (.refl s) (check.trans (decodeBytes_keepsLines ..))

/-! ### CLEAR, reset and start-up (R113, R176, R184) -/

theorem clearStation_linesSound (s : State) : (clearStation s).LinesSound :=
  linesSound_opened (s := clearedBlocks s) (r := LineRecord.opening 0 0 none []) rfl rfl rfl rfl
    ((KeepsLines.of_settles (queueMuster_settles _)).trans (settleTally_keepsLines _))

theorem handleClear_keepsLines (s : State) : KeepsLines s (handleClear s) := by
  have cleared : KeepsLines s (clearStation s) := ⟨fun _ => clearStation_linesSound s⟩
  unfold handleClear
  split
  · exact cleared
  · exact cleared
  · exact .ite cleared (.of_eq rfl rfl)
  all_goals exact .refl s

theorem blocksAtReset_linesSound (cart : CartridgePort) (s : State) : (blocksAtReset cart s).LinesSound :=
  (linesSound_iff _).mpr ⟨⟨.nil, Nat.zero_le _, List.forall_mem_nil _⟩, nofun⟩

theorem enterWithdrawn_keepsLines (s : State) : KeepsLines s (enterWithdrawn s) := .of_eq rfl rfl

theorem removeCartridge_keepsLines (s : State) : KeepsLines s (removeCartridge (abandonCartridgeWork s)) := by
  have abandoned : KeepsLines s (abandonCartridgeWork s) :=
    (KeepsLines.of_settles ((abandonShaping_settles s).trans (abandonBox_settles _))).trans (.of_eq rfl rfl)
  refine abandoned.trans ?_
  unfold removeCartridge
  split
  · exact .of_eq rfl rfl
  · exact enterWithdrawn_keepsLines _
  · exact .of_settles (raise_settles ..)
  all_goals exact .refl _

theorem receiveWord_keepsLines (o : OutstandingRead) (w : CartWord) (s : State) : KeepsLines s (receiveWord o w s) := by
  have profile (u : State) : KeepsLines u (receiveProfileWord w u) := by
    unfold receiveProfileWord profileRead
    split
    · exact .refl u
    · exact .ite (.refl u) (.ite (.ite (.of_eq rfl rfl) (.of_eq rfl rfl)) (.of_eq rfl rfl))
  unfold receiveWord
  refine .ite (.of_eq rfl rfl) ?_
  split
  · exact (profile _).after rfl rfl
  · exact (KeepsLines.of_settles (resumeShaping_settles ..)).after rfl rfl
  · exact (KeepsLines.of_settles (resumeBox_settles _)).after rfl rfl

/-! ### Attempts, received frames and timers -/

theorem dropFrame_keepsLines (f : Frame) (s : State) : KeepsLines s (dropFrame f s) := by
  have raised (c : Cond) : KeepsLines s (raise c s) := .of_settles (raise_settles c s)
  unfold dropFrame
  split
  · unfold dropMeasure
    refine .ite (.refl s) ?_
    split
    · exact .ite (.refl s) (raised _)
    · exact .refl s
  · unfold dropLineFrame
    split
    · exact .ite (.refl s) (raised _)
    · exact .refl s
  · unfold dropLineFrame
    split
    · exact .ite (.refl s) (raised _)
    · exact .refl s
  · exact .ite (.of_eq rfl rfl) (.refl s)
  · exact raised _
  · exact raised _
  all_goals exact .refl s

theorem endAttempt_keepsLines (t : TxFrame) (o : AttemptOutcome) (s : State) : KeepsLines s (endAttempt t o s) := by
  have fails : KeepsLines s (attemptFails t s) := .of_eq rfl rfl
  have spoiled : KeepsLines s (attemptSpoiled t s) := by
    unfold attemptSpoiled
    refine .ite fails (.ite (.of_eq rfl rfl) (.ite ((enterWithdrawn_keepsLines _).after rfl rfl) ?_))
    exact ((KeepsLines.of_settles (settleSlots_settles _)).trans (dropFrame_keepsLines ..)).after rfl rfl
  have carried : KeepsLines s (attemptCarried t s) :=
    .ite ((enterWithdrawn_keepsLines _).after rfl rfl) (.ite (.of_eq rfl rfl) (.of_eq rfl rfl))
  unfold endAttempt
  split
  · exact fails
  · exact fails
  · exact .ite spoiled carried

theorem receiveFrame_keepsLines (word : ArbWord) (payload : List Byte) (check : BitVec 16) (spoiled : Bool) (s : State) :
    KeepsLines s (receiveFrame word payload check spoiled s) := by
  have placed (f : Frame) : KeepsLines s (s.withPort (s.port.place f)) := .of_eq rfl rfl
  unfold receiveFrame carryFrame carriedWithdrawing
  refine .ite (.refl s) (.ite (.ite (.ite (.refl s) (placed _)) (.ite (placed _) (.refl s))) ?_)
  split
  case h_5 => exact .ite (enterWithdrawn_keepsLines s) (placed _)
  case h_6 => exact .ite (.of_settles (raise_settles ..)) (placed _)
  all_goals exact .refl s

theorem reportDue_settles (s : State) : Settles s (reportDue s) := by
  have line (u : State) (r : LineRecord) : Settles u (reportLine u r) := .ite (reportTraps_settles ..) (.refl u)
  have lines : Settles s (s.tally.inHand.foldl reportLine s) := .foldl line _ _
  unfold reportDue
  dsimp only
  split
  · exact lines.trans (reportTraps_settles ..)
  · exact lines

theorem planBoxes_settles (s : State) : Settles s (planBoxes s) := by
  unfold planBoxes
  split
  · exact .ite (withShaper_settles ..) (.refl s)
  · exact .refl s

theorem raiseCoverageTimeout_settles (s : State) : Settles s (raiseCoverageTimeout s) := by
  unfold raiseCoverageTimeout
  split
  · exact raise_settles ..
  · exact .refl s

theorem raiseLongHold_settles (s : State) : Settles s (raiseLongHold s) := by
  unfold raiseLongHold
  split
  · exact raise_settles ..
  · exact .ite (withPlacement_settles ..) (.refl s)

theorem expireVerdictWait_keepsLines (n : LineNumber) (s : State) : KeepsLines s (expireVerdictWait n s) := by
  have lose (r : LineRecord) (u : State) (m : Nat) : KeepsLines u (loseStation r u m) :=
    (KeepsLines.of_settles (raiseNamedTrap_settles ..)).after rfl rfl
  unfold expireVerdictWait
  dsimp only
  split
  · exact (KeepsLines.foldl (lose _) _ _).after rfl rfl
  · exact .of_eq rfl rfl

/-! ### Every command -/

theorem exec_keepsLines {c : Instr} {s t : State} (h : exec c s = .next t) : KeepsLines s t := by
  have out {u : State} (e : exec c s = .next u) (hu : KeepsLines s u) : KeepsLines s t := by
    rw [h] at e
    cases e
    exact hu
  cases c with
  | powerOn => exact out rfl ⟨fun _ => blocksAtReset_linesSound ..⟩
  | resetLineAsserted => exact out rfl ⟨fun _ => blocksAtReset_linesSound ..⟩
  | resetLineReleased straps => exact out rfl (.ite (.ite (.of_eq rfl rfl) (.of_eq rfl rfl)) (.refl s))
  | cartridgePresentFall =>
    exact out rfl (.ite (.ite (.of_eq rfl rfl) ((removeCartridge_keepsLines _).after rfl rfl)) (.refl s))
  | cartridgePresentRise => exact out rfl (.of_eq rfl rfl)
  | cartridgeReadComplete word =>
    refine out rfl ?_
    split
    · exact (receiveWord_keepsLines ..).finish
    · exact .refl s
  | frameAttemptStart => exact out rfl (.ite (.of_eq rfl rfl) (.refl s))
  | frameAttemptEnd o =>
    refine out rfl ?_
    split
    · exact (endAttempt_keepsLines ..).finish
    · exact .refl s
  | frameReceived word payload check spoiled =>
    change execFrameReceived word payload check spoiled s = _ at h
    unfold execFrameReceived at h
    split at h
    · cases h
      exact receiveFrame_keepsLines ..
    · cases h
  | clearFrame =>
    refine out rfl ?_
    split
    · exact .guarded ((handleClear_keepsLines _).after rfl rfl)
    · exact .refl s
  | copyFrame => exact out rfl (takeHead_keepsLines decodeCopy_keepsLines s)
  | cuttingResumed => exact out rfl (resumeCutting_settles s).guarded_keepsLines
  | shapingStart => exact out rfl (startShaping_settles s).guarded_keepsLines
  | storeWaitGranted => exact out rfl (grantStore_settles s).guarded_keepsLines
  | shapingComplete => exact out rfl (completeShaping_settles s).guarded_keepsLines
  | boxBuildStart => exact out rfl (startBox_settles s).guarded_keepsLines
  | boxBuildComplete => exact out rfl (completeBox_settles s).guarded_keepsLines
  | pendingRemainderRecord => exact out rfl (placeRemainder_settles s).guarded_keepsLines
  | waitingFrameEnters => exact out rfl (settleSlots_settles s).guarded_keepsLines
  | measureFrame => exact out rfl (takeHead_keepsLines handleMeasure_keepsLines s)
  | deferredDecision => exact out rfl (.guarded (settleTally_keepsLines s))
  | deferredCopyGap => exact out rfl (.guarded (checkGapMark_keepsLines s))
  | verdictFrame => exact out rfl (takeHead_keepsLines handleVerdict_keepsLines s)
  | trapReport => exact out rfl (reportDue_settles s).guarded_keepsLines
  | musterFrame =>
    refine out rfl (takeHead_keepsLines (fun f u => ?_) s)
    exact .ite (.of_eq (enrol_lines ..) rfl) (.refl u)
  | noticeFrame =>
    refine out rfl (takeHead_keepsLines (fun f u => ?_) s)
    unfold handleNotice
    split
    · exact .ite (.of_eq rfl rfl) (.refl u)
    · exact .refl u
  | takenFrame => exact out rfl (takeHead_keepsLines handleTaken_keepsLines s)
  | holdFrame => exact out rfl (takeHead_keepsLines handleHold_keepsLines s)
  | releaseFrame => exact out rfl (takeHead_keepsLines handleRelease_keepsLines s)
  | placeFrame => exact out rfl (takeHead_keepsLines handlePlace_keepsLines s)
  | recallFrame => exact out rfl (takeHead_keepsLines handleRecall_keepsLines s)
  | killFrame => exact out rfl (takeHead_keepsLines handleKill_keepsLines s)
  | killEnd => exact out rfl (.guarded ((endKillIfDue_keepsLines s).trans (settleTally_keepsLines _)))
  | heldMusterRequeued => exact out rfl (requeueHeldMuster_settles s).guarded_keepsLines
  | pendingAbortNotice => exact out rfl (releasePendingNotices_settles s).guarded_keepsLines
  | unassignedClass => exact out rfl (takeHead_keepsLines (fun _ u => .refl u) s)
  | coverageTimerFirstEnd => exact out rfl (.guarded ((KeepsLines.of_settles (planBoxes_settles _)).after rfl rfl))
  | coverageTimerSecondEnd => exact out rfl (.guarded ((KeepsLines.of_settles (raiseCoverageTimeout_settles _)).after rfl rfl))
  | verdictWaitExpiry =>
    refine out rfl ?_
    split
    · exact .guarded (expireVerdictWait_keepsLines ..)
    · exact .refl s
  | longHoldExpiry => exact out rfl (.guarded ((KeepsLines.of_settles (raiseLongHold_settles _)).after rfl rfl))

/-- Settles O54: a line opens where none is open, a decision is made while fewer than 2 lines are in hand, and what enters a tally
finds room there and overlaps no segment. -/
theorem stepKeepsLinesSound : Obligations.StepKeepsLinesSound := by
  unfold Obligations.StepKeepsLinesSound
  refine ⟨(linesSound_iff _).mpr ⟨⟨.nil, Nat.zero_le _, List.forall_mem_nil _⟩, nofun⟩, fun s t hs h => ?_⟩
  unfold step at h
  split at h
  · cases h
    exact hs
  next c rest _ =>
    have hpending : KeepsLines s (s.withPending rest) := .of_eq rfl rfl
    exact (hpending.trans (exec_keepsLines h)).sound hs

end Sys2Proof.Machine
end

-- ==== proofs: roster, break and verdicts ====
section
/-! Frames that change the roster (R134), the break a decision takes (R126), and the verdicts of a held line (R131 to R133). -/

namespace Sys2Proof.Machine

/-! ### A quiet state and the tally (R104) -/

/-- Nothing outstanding waits in the tally unit or the condition unit. -/
theorem quiet_withTally {s : State} (h : s.quiet = true) (x : TallyUnit) : (s.withTally x).quiet = true := h

/-- A quiet state stays quiet where no PLACE frame comes to be built and no LONG HOLD to wait. -/
theorem quiet_placement {s t : State} (h : s.quiet = true) (hshaper : t.shaper = s.shaper) (hcart : t.cartridge = s.cartridge)
    (hsplit : t.splitter = s.splitter) (hwindow : t.window = s.window) (hwait : t.port.waiting = s.port.waiting)
    (hnext : t.placement.nextLine? = none) (hunreported : t.placement.unreported = s.placement.unreported) :
    t.quiet = true := by
  obtain ⟨-, -, -, -, -, -, -, hnone, -⟩ := quiet_parts h
  simpa only [State.quiet, State.nothingWaits, State.noStoreWait, hshaper, hcart, hsplit, hwindow, hwait, hnext, hnone,
    hunreported] using h

/-- R101: a frame at the head that leaves a quiet state. -/
theorem finish_of_eq {s t : State} (h : t = s) (hq : s.quiet = true) : finish t = s := by
  rw [h, finish_quiet hq]

/-! ### The roster (R134) -/

theorem mem_rosterInsert_iff {n m : Nat} {l : List Nat} : m ∈ rosterInsert n l ↔ m = n ∨ m ∈ l := by
  refine ⟨mem_rosterInsert, ?_⟩
  induction l with
  | nil => simp [rosterInsert]
  | cons x l ih =>
    unfold rosterInsert
    split
    next hnx => exact fun h => h.elim (fun hm => by simp [hm, hnx]) id
    · split
      · exact List.mem_cons.mpr
      · rintro (hm | hm)
        · exact List.mem_cons_of_mem _ (ih (.inl hm))
        · exact (List.mem_cons.mp hm).elim (fun hx => by simp [hx]) fun hm => List.mem_cons_of_mem _ (ih (.inr hm))

theorem mem_enrol {t : TallyUnit} {n m : Nat} : m ∈ (t.enrol n).roster ↔ m ∈ t.roster ∨ (m = n ∧ n < 8) := by
  unfold TallyUnit.enrol
  split
  next hn => simp [mem_rosterInsert_iff, hn, or_comm]
  next hn => simp [hn]

/-- R134: enrolling a sender changes the roster alone. -/
theorem enrol_eq (t : TallyUnit) (n : Nat) : t.enrol n = { t with roster := (t.enrol n).roster } := by
  unfold TallyUnit.enrol
  split <;> rfl

theorem mem_strike {t : TallyUnit} {n m : Nat} : m ∈ (t.strike n).roster ↔ m ∈ t.roster ∧ m ≠ n := by
  simp [TallyUnit.strike]

/-- Settles O34: a MUSTER enrols its sender, the NOTICE of a withdraw condition strikes it, and nothing else is outstanding. -/
theorem rosterFollowsFrames : Obligations.RosterFollowsFrames := by
  unfold Obligations.RosterFollowsFrames
  intro s f rest ht hq hr
  refine ⟨fun hc hlen => ?_, fun hc hlen => ?_⟩
  · have hact : handleMuster f s.popped = s.popped.withTally (s.tally.enrol f.sender) := if_pos (decide_eq_true hlen)
    have hexec : exec .musterFrame s = .next (s.popped.withTally (s.tally.enrol f.sender)) :=
      congrArg Host.Outcome.next ((takeHead_popped hr hc ht).trans (finish_of_eq hact (quiet_withTally hq _)))
    exact ⟨_, hexec, congrArg s.popped.withTally (enrol_eq ..), fun m => mem_enrol⟩
  · have hparse : parseNotice f.payload = some (numField f.payload 0 1) := if_neg (by omega)
    by_cases hstruck : isWithdrawCode (numField f.payload 0 1) = true ∧ f.sender < 8
    · have hact : handleNotice f s.popped = s.popped.withTally (s.tally.strike f.sender) := by
        simp [handleNotice, hparse, hstruck]
      have hexec : exec .noticeFrame s = .next (s.popped.withTally (s.tally.strike f.sender)) :=
        congrArg Host.Outcome.next ((takeHead_popped hr hc ht).trans (finish_of_eq hact (quiet_withTally hq _)))
      refine ⟨_, hexec, rfl, fun m => mem_strike.trans ?_⟩
      simp only [isWithdrawCode, Bool.and_eq_true, decide_eq_true_eq] at hstruck
      simp [hstruck]
    · have hact : handleNotice f s.popped = s.popped := by
        simp only [handleNotice, hparse]
        exact if_neg (by simpa using hstruck)
      have hexec : exec .noticeFrame s = .next s.popped :=
        congrArg Host.Outcome.next ((takeHead_popped hr hc ht).trans (finish_of_eq hact hq))
      refine ⟨_, hexec, rfl, fun m => (and_iff_left ?_).symm⟩
      simp only [isWithdrawCode, Bool.and_eq_true, decide_eq_true_eq] at hstruck
      omega

/-! ### The break (R124, R126) -/

/-- R126: the last opportunity that fits is followed by none that does. -/
theorem last_fitting {l before after : List RecordedOpp} {o : RecordedOpp} {p : RecordedOpp → Bool}
    (h : (l.filter p).getLast? = some o) (hl : l = before ++ o :: after) (ho : o ∉ after) : ∀ x ∈ after, p x = false := by
  have hp : p o = true := (List.mem_filter.mp (List.mem_of_getLast? h)).2
  rw [hl, List.filter_append, List.filter_cons_of_pos hp, List.append_cons] at h
  by_contra hfits
  have hne : after.filter p ≠ [] := by simpa using hfits
  have hlast : (after.filter p).getLast? = some o := by
    rw [← h, List.getLast?_append_of_ne_nil _ hne]
  exact ho (List.mem_of_mem_filter (List.mem_of_getLast? hlast))

/-- R126: the three ways a break is chosen. -/
theorem chooseBreak_cases (r : LineRecord) (m : Nat) :
    (r.scan.stop = .para ∧ r.scan.width - r.scan.shrink ≤ m ∧
      r.chooseBreak m = ⟨.paragraph, r.scan.point + 1, none, true, false⟩) ∨
    (∃ o, (r.scan.opps.filter (fun o => o.fits m)).getLast? = some o ∧
      r.chooseBreak m = ⟨o.kind, o.endIdx, some o, false, false⟩) ∨
    ((∀ o ∈ r.scan.opps, o.fits m = false) ∧ (r.chooseBreak m).opp = r.scan.opps.head? ∧
      (r.chooseBreak m).kind = .overset ∧ (r.chooseBreak m).overset = true) := by
  unfold LineRecord.chooseBreak
  split
  next h => exact .inl ⟨h.1, h.2, rfl⟩
  · split
    next o ho => exact .inr (.inl ⟨o, ho, rfl⟩)
    next hnone =>
      have hfits : ∀ o ∈ r.scan.opps, o.fits m = false := by simpa using hnone
      refine .inr (.inr ⟨hfits, ?_⟩)
      split
      next heq => exact ⟨by rw [heq]; rfl, rfl, rfl⟩
      next heq => exact ⟨by rw [heq]; rfl, rfl, rfl⟩

/-- Settles O39: the break is the paragraph end, the last opportunity that fits, or overset. -/
theorem breakFits : Obligations.BreakFits := by
  unfold Obligations.BreakFits
  intro r m
  rcases chooseBreak_cases r m with ⟨hpara, hwidth, h⟩ | ⟨o, ho, h⟩ | ⟨hnone, hopp, hkind, hover⟩
  · rw [h]
    exact ⟨nofun, fun _ _ => ⟨hpara, hwidth, rfl⟩, nofun⟩
  · rw [h]
    refine ⟨fun x _ hx => ?_, nofun, nofun⟩
    cases hx
    obtain ⟨hmem, hfits⟩ := List.mem_filter.mp (List.mem_of_getLast? ho)
    exact ⟨hmem, hfits, fun before after hl hafter => last_fitting ho hl hafter⟩
  · rw [hover]
    exact ⟨nofun, nofun, fun _ => ⟨hnone, hopp, hkind⟩⟩

/-! ### Records found by number -/

theorem line?_number {t : TallyUnit} {n : LineNumber} {r : LineRecord} (h : t.line? n = some r) : r.number = n := by
  simpa using List.find?_some h

/-- A line's record, rewritten in what a search does not read, is found as before. -/
theorem find?_mapLine {t : TallyUnit} {q : LineRecord → Bool} {n : LineNumber} {r : LineRecord}
    {f : LineRecord → LineRecord} (h : t.lines.find? q = some r) (hf : ∀ x, q (f x) = q x) :
    (t.mapLine n f).lines.find? q = some (if r.number == n then f r else r) := by
  have hkept : (q ∘ fun x => if x.number == n then f x else x) = q := by
    funext x
    dsimp only [Function.comp]
    split
    · exact hf x
    · rfl
  rw [TallyUnit.mapLine, List.find?_map, hkept, h]
  rfl

/-- The record of a number, rewritten with its number kept, is the record of that number. -/
theorem line?_mapLine {t : TallyUnit} {n : LineNumber} {r : LineRecord} {f : LineRecord → LineRecord}
    (h : t.line? n = some r) (hf : ∀ x, (f x).number = x.number) : (t.mapLine n f).line? n = some (f r) :=
  (find?_mapLine h fun x => by rw [hf]).trans (congrArg some (if_pos (by simp [line?_number h])))

theorem trySend_number (r : LineRecord) : r.trySend.number = r.number := by
  unfold LineRecord.trySend
  split <;> rfl

theorem store_rest (r : LineRecord) (v : VerdictSeen) :
    (r.store v).number = r.number ∧ (r.store v).state = r.state ∧ (r.store v).decision = r.decision ∧
      (r.store v).placed = r.placed := by
  unfold LineRecord.store
  dsimp only
  split <;> exact ⟨rfl, rfl, rfl, rfl⟩

/-! ### Verdicts at a working station (R131 to R134) -/

/-- R132, R134: a VERDICT of a held line at the head of a working station's queue, its line not fenced off. -/
theorem exec_verdictFrame {s : State} {f : Frame} {rest : List Frame} {m : VerdictMsg} {r : LineRecord}
    (hw : s.working = true) (hr : s.port.rx = f :: rest) (hc : f.cls = .verdict)
    (hp : VerdictMsg.parse f.payload = some m) (hfence : s.tally.fenced m = false)
    (hline : s.tally.line? m.line = some r) :
    exec .verdictFrame s = .next (finish (matchVerdict r f.sender m (s.popped.withTally (s.tally.enrol f.sender)))) := by
  have hfence' : (s.tally.enrol f.sender).fenced m = false := by
    rw [enrol_eq]
    exact hfence
  have hline' : (s.tally.enrol f.sender).line? m.line = some r := by
    rw [enrol_eq]
    exact hline
  refine congrArg Host.Outcome.next ((takeHead_popped hr hc (takes_of_working hw)).trans (congrArg finish ?_))
  have hw' : s.popped.working = true := hw
  simp [handleVerdict, hp, hw, takeVerdict, hfence', hline']

/-- R132: the store of a verdict, which a matching one makes first. -/
theorem store_stored {r : LineRecord} {v : VerdictSeen}
    (h : (r.verdicts.filter (fun x => x.sender != v.sender)).length < 8) : v ∈ (r.store v).verdicts := by
  have hroom : (r.verdicts.filter (fun x => x.sender != v.sender)).length < seenLimit := h
  simp [LineRecord.store, hroom]

/-- Settles O40: a verdict of an open line is stored, and nothing else is outstanding. -/
theorem verdictStored : Obligations.VerdictStored := by
  unfold Obligations.VerdictStored
  intro s f rest m r hw hq hr hc hp hfence hline hopen hgen
  refine ⟨?_, store_stored (v := ⟨f.sender, m.gen, m.figures⟩)⟩
  rw [exec_verdictFrame hw hr hc hp hfence hline]
  refine congrArg Host.Outcome.next (finish_of_eq ?_ (quiet_withTally hq _))
  simp [matchVerdict, hgen, hopen]
  rfl

/-! ### The own verdict (R131, R133, R171) -/

/-- R162: with no trap held none is reported. -/
theorem reportTraps_none {n : LineNumber} {holds : CopyIndex → Bool} {s : State} (h : s.condition.reports = []) :
    reportTraps n holds s = s := by
  unfold reportTraps
  simp only [h, List.filter_nil, List.foldl_nil]
  rw [← h]
  rfl

/-- R153: the finishing line alone may end. -/
theorem endFinishing_rest (u : PlacementUnit) (ends : LineNumber → Bool) :
    (u.endFinishing ends).lines = u.lines ∧ (u.endFinishing ends).unreported = u.unreported := by
  unfold PlacementUnit.endFinishing
  split
  · split <;> exact ⟨rfl, rfl⟩
  · exact ⟨rfl, rfl⟩

/-- R115, R153: sending a line leaves the placements of the lines. -/
theorem trySendLine_placement (n : LineNumber) (s : State) :
    (trySendLine n s).placement.lines = s.placement.lines ∧
      (trySendLine n s).placement.unreported = s.placement.unreported := by
  unfold trySendLine
  dsimp only [State.withPlacement_placement]
  split
  · exact endFinishing_rest ..
  · exact ⟨rfl, rfl⟩

/-- R115: what sending a line leaves of a quiet state. -/
theorem trySendLine_quiet {n : LineNumber} {s : State} (h : s.quiet = true) : (trySendLine n s).quiet = true := by
  obtain ⟨hlines, hunreported⟩ := trySendLine_placement n s
  obtain ⟨-, -, -, -, -, -, -, hnext, -⟩ := quiet_parts h
  refine quiet_placement h rfl rfl rfl rfl rfl ?_ hunreported
  rw [PlacementUnit.nextLine?, hlines]
  exact hnext

/-- R115, R131: the record of a line whose own verdict has been carried. -/
theorem trySend_ownVerdict {r : LineRecord} (hs : r.state = .decided) :
    ({ r with ownVerdict := true } : LineRecord).trySend =
      { r with ownVerdict := true, state := if r.placed then .sent else .decided } := by
  cases hp : r.placed <;> simp [LineRecord.trySend, hs]

/-- R131, R135, R171: the own verdict of line `r` is carried; the line is not yet sent, nor are its traps reported. -/
def State.verdictCarried (s : State) (r : LineRecord) : State := { s with
  tally := { s.tally.mapLine r.number (fun x => { x with ownVerdict := true }) with
    verdictWait := s.tally.verdictWait.note r.number }
  condition := if s.condition.killPeriod = some r.number then { s.condition with killPeriod := none } else s.condition }

theorem verdictCarried_reports (s : State) (r : LineRecord) :
    (s.verdictCarried r).condition.reports = s.condition.reports := by
  unfold State.verdictCarried
  dsimp only
  split <;> rfl

/-- R171: the own verdict ends the kill period that waits for its line, and no other. -/
theorem verdictCarried_killPeriod (s : State) (r : LineRecord) : (s.verdictCarried r).condition.killPeriod =
    if s.condition.killPeriod = some r.number then none else s.condition.killPeriod := by
  unfold State.verdictCarried
  dsimp only
  split <;> rfl

/-- R115, R162: with no trap held the line's own verdict lets it be sent, and that is all. -/
theorem ownVerdictCarried_noTraps {s : State} {r : LineRecord} (h : s.condition.reports = []) :
    ownVerdictCarried r s = trySendLine r.number (s.verdictCarried r) :=
  reportTraps_none ((verdictCarried_reports s r).trans h)

/-- R131 to R133: the own verdict of a decided line, with the figures of its decision, is stored and then carried. -/
theorem matchVerdict_own {s : State} {r : LineRecord} {m : VerdictMsg} (hstate : r.state = .decided)
    (hown : r.ownVerdict = false) (hgen : m.gen = r.gen) (hfigures : r.figures? = some m.figures) :
    matchVerdict r s.port.station m s = ownVerdictCarried r
      (s.withTally (s.tally.mapLine r.number (fun x => x.store ⟨s.port.station, m.gen, m.figures⟩))) := by
  simp [matchVerdict, hgen, hstate, compareVerdict, hfigures, hown]

/-- Settles O41: the verdict is stored and compares equal, and the line's own verdict is carried; nothing else is outstanding. -/
theorem ownVerdict_is_handled : Obligations.OwnVerdictCarried := by
  unfold Obligations.OwnVerdictCarried
  intro s f rest m r hw hq hr hc hsender hp hfence hline hstate hown hgen hfigures hreports
  let v : VerdictSeen := ⟨f.sender, m.gen, m.figures⟩
  let u := s.popped.withTally (s.tally.enrol f.sender)
  let stored := u.withTally (u.tally.mapLine r.number (fun x => x.store v))
  let t := trySendLine r.number (stored.verdictCarried r)
  have hexec : exec .verdictFrame s = .next t := by
    have hmatch : matchVerdict r f.sender m u = t := by
      have hown' := matchVerdict_own (s := u) hstate hown hgen hfigures
      rw [show u.port.station = f.sender from hsender.symm] at hown'
      exact hown'.trans (ownVerdictCarried_noTraps hreports)
    rw [exec_verdictFrame hw hr hc hp hfence hline]
    exact congrArg Host.Outcome.next (finish_of_eq hmatch (trySendLine_quiet hq))
  have hwait : u.tally.verdictWait = s.tally.verdictWait := by
    unfold u
    rw [enrol_eq]
    rfl
  obtain ⟨hnumber, hstored, hdecision, hplaced⟩ := store_rest r v
  have hline' : u.tally.line? r.number = some r := by
    unfold u
    rw [enrol_eq, line?_number hline]
    exact hline
  have hfinal : t.tally.line? r.number = some ({ r.store v with ownVerdict := true } : LineRecord).trySend :=
    line?_mapLine (line?_mapLine (f := fun x => { x with ownVerdict := true })
      (line?_mapLine hline' fun x => (store_rest x v).1) fun _ => rfl) trySend_number
  rw [trySend_ownVerdict (hstored.trans hstate)] at hfinal
  have hperiod : t.condition.killPeriod = if s.condition.killPeriod = some r.number then none else s.condition.killPeriod :=
    verdictCarried_killPeriod stored r
  refine ⟨t, _, hexec, hfinal, rfl, by rw [← hplaced], hdecision, fun hnone => ?_, fun hk => hperiod.trans (if_pos hk),
    fun hk => hperiod.trans (if_neg hk)⟩
  have hnote : t.tally.verdictWait = u.tally.verdictWait.note r.number := rfl
  rw [hnote, hwait, VerdictWait.note, hnone]

end Sys2Proof.Machine
end

-- ==== proofs: carried PLACE frames ====
section
/-! A PLACE frame of this station that is carried marks its entries (R149), and completes its line's placements (R115). -/

namespace Sys2Proof.Machine

/-! ### Entries marked carried (R149) -/

theorem markEntries_getElem? {marks : List Bool} {i : Nat} {b : Bool} (first n : Nat) (h : marks[i]? = some b) :
    (markEntries marks first n)[i]? = some (b || decide (first ≤ i ∧ i < first + n)) := by
  simp [markEntries, List.getElem?_map, List.getElem?_zipIdx, h, Bool.decide_and]

theorem markEntries_length (marks : List Bool) (i n : Nat) : (markEntries marks i n).length = marks.length := by
  simp [markEntries]

/-! ### A line's placement state -/

theorem placement_line?_number {u : PlacementUnit} {n : LineNumber} {p : PlaceState} (h : u.line? n = some p) :
    p.number = n := by
  simpa using List.find?_some h

/-- The placement state of a line gives way to another of that line. -/
theorem placement_line?_mapLine {u : PlacementUnit} {n : LineNumber} {p q : PlaceState} (h : u.line? n = some p)
    (hq : q.number = n) : (u.mapLine n (fun _ => q)).line? n = some q := by
  have hkept : ((fun x : PlaceState => x.number == n) ∘ fun x => if x.number == n then q else x) = fun x => x.number == n := by
    funext x
    dsimp only [Function.comp]
    split
    next hx => rw [hq, eq_of_beq hx]
    · rfl
  unfold PlacementUnit.line? PlacementUnit.mapLine at *
  rw [List.find?_map, hkept, h]
  exact congrArg some (if_pos (List.find?_some h))

/-- R148: no frame comes to be built where the state of a line gives way to one with as many frames built. -/
theorem nextLine?_mapLine {u : PlacementUnit} {n : LineNumber} {p q : PlaceState} (hp : u.line? n = some p)
    (h : u.nextLine? = none) (hq : q.toReplace = p.toReplace ∧ q.nextEntry = p.nextEntry ∧ q.entryCount = p.entryCount) :
    (u.mapLine n (fun _ => q)).nextLine? = none := by
  have hnone := List.find?_eq_none.mp h
  obtain ⟨hreplace, hnext, hcount⟩ := hq
  refine List.find?_eq_none.mpr fun y hy => ?_
  obtain ⟨x, hx, rfl⟩ := List.mem_map.mp hy
  split
  · rw [hreplace, hnext, hcount]
    exact hnone p (List.mem_of_find?_eq_some hp)
  · exact hnone x hx

/-! ### The frame at the head of the receive queue -/

/-- R101, R149: a PLACE frame at the head of a working station's queue. -/
theorem exec_placeFrame {s : State} {f : Frame} {rest : List Frame} {m : PlaceMsg} (hw : s.working = true)
    (hr : s.port.rx = f :: rest) (hc : f.cls = .place) (hp : PlaceMsg.parse f.payload = some m) :
    exec .placeFrame s = .next (finish (if f.sender = s.port.station then carryPlace m s.popped else s.popped)) := by
  refine congrArg Host.Outcome.next ((takeHead_popped hr hc (takes_of_working hw)).trans (congrArg finish ?_))
  have hstation : s.popped.port.station = s.port.station := rfl
  simp [handlePlace, hp, hw, hstation]

/-- R149: the line's placements once the frame is handled, in its present round. -/
def State.carriedPlace (s : State) (p : PlaceState) (m : PlaceMsg) : State :=
  s.withPlacement (s.placement.mapLine m.line (fun _ => p.afterCarry m))

theorem carriedPlace_quiet {s : State} {p : PlaceState} {m : PlaceMsg} (h : s.quiet = true)
    (hp : s.placement.line? m.line = some p) : (s.carriedPlace p m).quiet = true := by
  obtain ⟨-, -, -, -, -, -, -, hnext, -⟩ := quiet_parts h
  exact quiet_placement h rfl rfl rfl rfl rfl (nextLine?_mapLine hp hnext ⟨rfl, rfl, rfl⟩) rfl

/-- R149: a frame of the line's generation and present round. -/
theorem carryPlace_present {s : State} {p : PlaceState} {m : PlaceMsg} (hp : s.placement.line? m.line = some p)
    (hgen : p.gen = m.gen) (hreplace : p.toReplace = false) :
    carryPlace m s = if (p.afterCarry m).carried then trySendLine m.line ((s.carriedPlace p m).withTally
      (s.tally.mapLine m.line (fun r => { r with placed := true }))) else s.carriedPlace p m := by
  simp only [carryPlace, hp, hgen, hreplace, and_self, if_true]
  rfl

/-- R149: no frame of another round or generation has an effect. -/
theorem carryPlace_other {s : State} {m : PlaceMsg}
    (h : ∀ p, s.placement.line? m.line = some p → p.gen ≠ m.gen ∨ p.toReplace = true) : carryPlace m s = s := by
  unfold carryPlace
  split
  next p hp =>
    refine if_neg fun hpresent => ?_
    rcases h p hp with hgen | hreplace
    · exact hgen hpresent.1
    · simp [hreplace] at hpresent
  · rfl

/-- R115: the record of a line whose placements have been carried. -/
theorem trySend_placed (r : LineRecord) : ({ r with placed := true } : LineRecord).trySend =
    { r with placed := true, state := if r.state = .decided ∧ r.ownVerdict = true then .sent else r.state } := by
  unfold LineRecord.trySend
  by_cases h : r.state = .decided ∧ r.ownVerdict = true
  · simp [h]
  · rw [if_neg h, if_neg fun hs => h ⟨hs.1, hs.2.1⟩]

/-- Settles O36: an own PLACE frame of the present round marks its entries, and sends the line when that completes the round. -/
theorem placeFrameCarries : Obligations.PlaceFrameCarries := by
  unfold Obligations.PlaceFrameCarries
  refine ⟨fun p m => ⟨fun i b h => markEntries_getElem? _ _ h, markEntries_length .., ?_, rfl⟩, ?_⟩
  · simp [PlaceState.afterCarry]
  intro s f rest m hw hq hr hc hp
  have hexec := exec_placeFrame hw hr hc hp
  have idle (h : carryPlace m s.popped = s.popped) : exec .placeFrame s = .next s.popped := by
    rw [hexec, h, ite_self, finish_quiet hq]
  refine ⟨fun hsender => ?_, fun hnone => idle (carryPlace_other fun p hline => ?_), fun p hsender hline hgen hreplace => ?_,
    fun p _ hline hother => idle (carryPlace_other fun x hx => ?_)⟩
  · rw [hexec, if_neg hsender, finish_quiet hq]
  · cases hnone.symm.trans hline
  · rw [if_pos hsender, carryPlace_present (s := s.popped) hline hgen hreplace] at hexec
    have hquiet := carriedPlace_quiet (s := s.popped) (m := m) hq hline
    refine ⟨fun hmore => ?_, fun hall => ?_⟩
    · rw [hexec, hmore, if_neg Bool.false_ne_true, finish_quiet hquiet]
      rfl
    · rw [if_pos hall, finish_quiet (trySendLine_quiet (quiet_withTally hquiet _))] at hexec
      refine ⟨_, hexec, ?_, rfl, rfl, rfl, rfl, fun r hrecord => ?_⟩
      · rw [PlacementUnit.line?, (trySendLine_placement ..).1]
        exact placement_line?_mapLine hline (placement_line?_number (p := p) hline)
      · rw [← trySend_placed]
        exact line?_mapLine (line?_mapLine (f := fun r => { r with placed := true }) hrecord fun _ => rfl) trySend_number
  · cases hline.symm.trans hx
    exact hother

end Sys2Proof.Machine
end

-- ==== proofs: the coverage and verdict-wait timers ====
section
/-! The ends of the coverage timer's stages (R128 to R130), and the verdict-wait timer (R135). -/

namespace Sys2Proof.Machine

/-! ### The coverage timer (R128 to R130) -/

/-- R72, R129: a box segment to build does not make a station's work outstanding. -/
theorem quiet_withPlan {s : State} (h : s.quiet = true) (l : List BoxPlan) :
    (s.withShaper { s.shaper with plan := l }).quiet = true := h

/-- Settles O43: the timer enters its second stage, and the fallback station plans its boxes. -/
theorem coverageFirstEnds : Obligations.CoverageFirstEnds := by
  unfold Obligations.CoverageFirstEnds
  intro s hw hstage hq
  let second := s.withTally { s.tally with coverage := .second }
  have hexec : exec .coverageTimerFirstEnd s = .next (finish (planBoxes second)) :=
    congrArg Host.Outcome.next (if_pos ⟨hw, hstage⟩)
  refine ⟨fun hfallback => ?_, fun r hfallback hopen => ?_⟩
  · have hplan : planBoxes second = second := by
      unfold planBoxes
      split
      · exact if_neg (by simp [second, hfallback])
      · rfl
    rw [hexec, finish_of_eq hplan (quiet_withTally hq _)]
  · have hopen' : second.tally.openLine? = some r := hopen
    have hplan : planBoxes second = second.withShaper { s.shaper with plan := s.shaper.plan ++ s.boxesDue r } := by
      simp only [planBoxes, hopen']
      exact if_pos hfallback
    rw [hexec, finish_of_eq hplan (quiet_withPlan (s := second) hq _)]

/-- R130, R163: COVERAGE TIMEOUT outside the kill period sends a RECALL of the line and then its NOTICE. -/
theorem raise_coverageTimeout {s : State} {r : LineRecord} {i : CopyIndex} (hw : s.working = true)
    (hk : s.condition.killPeriod = none) :
    raise ⟨.coverageTimeout, i, i, none, some r.ref, none⟩ s =
      sendNotice ⟨.coverageTimeout, r.number, i, r.start, none, 0⟩ (sendRecall .lineRecall r.ref .coverageTimeout s) := by
  simp [raise, hw, CondCode.cls, hk, raiseFault, Cond.ref, LineRef.startIn, LineRecord.ref, advanceChoices]

/-- Settles O44: the RECALL enters an urgent slot, and the NOTICE handed over after it leaves it there. -/
theorem coverageSecondEnds : Obligations.CoverageSecondEnds := by
  unfold Obligations.CoverageSecondEnds
  intro s r hw hstage hq hopen hk hroom hroomNotice hheld
  let expired := s.withTally { s.tally with coverage := .expired }
  let recalling := s.port.frame .lineRecall (RecallMsg.encode ⟨r.number, r.gen, r.start, 18⟩)
  let sent := expired.withPort (s.port.enqueue recalling true (s.placement.entryMark recalling))
  let notice : Notice := ⟨.coverageTimeout, r.number, r.scan.point, r.start, none, 0⟩
  let t := sent.withPort (sent.port.enqueue (s.port.frame .notice notice.encode) false false)
  have hsend : sendRecall .lineRecall r.ref .coverageTimeout expired = sent := sendRecall_enters hroom hheld
  have hnotice : sent.hasRoom .notice .notice false = true := by
    simp only [State.hasRoom, Bool.and_eq_true, beq_iff_eq] at hroomNotice ⊢
    exact ⟨hroomNotice.1, slotFor_notice_enqueue hroomNotice.2⟩
  have hraise : raiseCoverageTimeout expired = t := by
    have hopen' : expired.tally.openLine? = some r := hopen
    simp only [raiseCoverageTimeout, hopen']
    rw [raise_coverageTimeout (s := expired) hw hk, hsend, sendNotice_enters hnotice]
    rfl
  have hexec : exec .coverageTimerSecondEnd s = .next t := by
    obtain ⟨-, -, -, -, -, hwait, -⟩ := quiet_parts hq
    have hquiet : t.quiet = true := quiet_congr hq rfl rfl rfl rfl rfl hwait
    rw [← finish_of_eq hraise hquiet]
    exact congrArg Host.Outcome.next (if_pos ⟨hw, hstage⟩)
  refine ⟨t, ⟨recalling, true, 0, s.placement.entryMark recalling, false, false⟩, hexec, rfl, ?_, rfl, rfl, rfl⟩
  exact (txInsert_perm _ _).mem_iff.mpr (List.mem_cons_of_mem _ (mem_enqueue ..))

end Sys2Proof.Machine
end

-- ==== proofs: frames handed to the port and nothing else ====
section
/-! What happens where frames alone are outstanding: a producer hands frames to the port or they go on waiting (R103, R104),
and the tally unit, the placements and the conditions stay as they are. -/

namespace Sys2Proof.Machine

/-! ### What handing frames over leaves -/

/-- From `s` to `t` frames come to the port, MEASURE frames are noted as queued and abort notices may wait; all else stays. -/
structure Posts (s t : State) : Prop where
  tally     : t.tally = s.tally
  placement : t.placement = s.placement
  window    : t.window = s.window
  splitter  : t.splitter = s.splitter
  cartridge : t.cartridge = s.cartridge
  condition : t.condition = { s.condition with notices := t.condition.notices }
  leaving   : t.port.withdrawalPending = s.port.withdrawalPending
  remainder : t.shaper.remainder = s.shaper.remainder
  op        : t.shaper.op = s.shaper.op
  boxOp     : t.shaper.boxOp = s.shaper.boxOp
  records   : t.shaper.records.map SegRecord.state = s.shaper.records.map SegRecord.state
  boxes     : t.shaper.boxes.map BoxRecord.state = s.shaper.boxes.map BoxRecord.state

theorem Posts.refl (s : State) : Posts s s := ⟨rfl, rfl, rfl, rfl, rfl, rfl, rfl, rfl, rfl, rfl, rfl, rfl⟩

theorem Posts.trans {s t u : State} (h : Posts s t) (g : Posts t u) : Posts s u where
  tally := g.tally.trans h.tally
  placement := g.placement.trans h.placement
  window := g.window.trans h.window
  splitter := g.splitter.trans h.splitter
  cartridge := g.cartridge.trans h.cartridge
  condition := by rw [g.condition, h.condition]
  leaving := g.leaving.trans h.leaving
  remainder := g.remainder.trans h.remainder
  op := g.op.trans h.op
  boxOp := g.boxOp.trans h.boxOp
  records := g.records.trans h.records
  boxes := g.boxes.trans h.boxes

theorem Posts.ite {p : Prop} [Decidable p] {s t u : State} (h : Posts s t) (g : Posts s u) :
    Posts s (if p then t else u) := by
  split
  · exact h
  · exact g

theorem Posts.foldl {α : Type} {f : State → α → State} (h : ∀ s x, Posts s (f s x)) (l : List α) (s : State) :
    Posts s (l.foldl f s) := by
  induction l generalizing s with
  | nil => exact .refl s
  | cons x l ih => exact (h s x).trans (ih _)

theorem SendsOnly.posts {s t : State} (h : SendsOnly s t) : Posts s t := by
  obtain ⟨p, n, rfl, hp⟩ := h
  exact ⟨rfl, rfl, rfl, rfl, rfl, rfl, hp, rfl, rfl, rfl, rfl, rfl⟩

theorem withPort_posts {s : State} {p : BusPort} (h : p.withdrawalPending = s.port.withdrawalPending) :
    Posts s (s.withPort p) := ⟨rfl, rfl, rfl, rfl, rfl, rfl, h, rfl, rfl, rfl, rfl, rfl⟩

theorem withNotices_posts (s : State) (l : List PendingNotice) :
    Posts s (s.withCondition { s.condition with notices := l }) :=
  ⟨rfl, rfl, rfl, rfl, rfl, rfl, rfl, rfl, rfl, rfl, rfl, rfl⟩

theorem Posts.working {s t : State} (h : Posts s t) : t.working = s.working := by
  rw [State.working, State.working, h.condition, h.leaving]

theorem map_state_mapRecord (h : Shaper) (i : CopyIndex) {f : SegRecord → SegRecord} (hf : ∀ x, (f x).state = x.state) :
    (h.mapRecord i f).records.map SegRecord.state = h.records.map SegRecord.state := by
  unfold Shaper.mapRecord
  rw [List.map_map]
  refine List.map_congr_left fun x _ => ?_
  dsimp only [Function.comp]
  split
  · exact hf x
  · rfl

theorem map_state_changeFirst {p : BoxRecord → Bool} {f : BoxRecord → BoxRecord} (hf : ∀ x, (f x).state = x.state)
    (l : List BoxRecord) : (changeFirst p f l).map BoxRecord.state = l.map BoxRecord.state := by
  induction l with
  | nil => rfl
  | cons x l ih => unfold changeFirst; split <;> simp [hf, ih]

/-- A mark on an own record. -/
theorem mapRecord_posts (s : State) (i : CopyIndex) {f : SegRecord → SegRecord} (hf : ∀ x, (f x).state = x.state) :
    Posts s (s.withShaper (s.shaper.mapRecord i f)) :=
  ⟨rfl, rfl, rfl, rfl, rfl, rfl, rfl, rfl, rfl, rfl, map_state_mapRecord _ i hf, rfl⟩

/-- A mark on a box segment record. -/
theorem mapBox_posts (s : State) (p : BoxRecord → Bool) {f : BoxRecord → BoxRecord} (hf : ∀ x, (f x).state = x.state) :
    Posts s (s.withShaper (s.shaper.mapBox p f)) :=
  ⟨rfl, rfl, rfl, rfl, rfl, rfl, rfl, rfl, rfl, rfl, rfl, map_state_changeFirst hf _⟩

/-! ### The producers (R103, R109, R160, R163, R165) -/

theorem handOver_posts (who : Producer) (f : Frame) (s : State) : Posts s (handOver who f s) :=
  (handOver_sendsOnly who f s).posts

theorem sendNotice_posts (n : Notice) (s : State) : Posts s (sendNotice n s) := handOver_posts ..

theorem sendAbortNotice_posts (n : Notice) (i : CopyIndex) (s : State) : Posts s (sendAbortNotice n i s) := by
  unfold sendAbortNotice
  split
  · exact sendNotice_posts ..
  · exact .ite (withNotices_posts ..) (.refl s)

theorem releasePendingNotices_posts (s : State) : Posts s (releasePendingNotices s) :=
  (withNotices_posts ..).trans (.foldl (fun _ _ => sendAbortNotice_posts ..) _ _)

theorem requeueHeldMuster_posts (s : State) : Posts s (requeueHeldMuster s) := by
  unfold requeueHeldMuster
  split
  · refine Posts.trans ?_ (handOver_posts ..)
    exact withPort_posts rfl
  · exact .refl s

theorem publish_posts (s : State) (x : Published) : Posts s (publish s x) := by
  cases x with
  | own r => exact (handOver_posts ..).trans (mapRecord_posts _ _ fun _ => rfl)
  | box b => exact (handOver_posts ..).trans (mapBox_posts _ _ fun _ => rfl)

/-- R18, R163: COPY GAP is neither a withdraw condition nor contributory. -/
theorem raise_copyGap_posts {c : Cond} (hc : c.code = .copyGap) (s : State) : Posts s (raise c s) := by
  have habort : Posts s (raiseAbort c s) := by
    unfold raiseAbort
    split
    · exact sendAbortNotice_posts ..
    · refine Posts.trans ?_ (sendAbortNotice_posts ..)
      exact .ite (.refl s) (sendRecall_sendsOnly ..).posts
  unfold raise
  rw [hc]
  exact .ite (habort.trans (advanceChoices_sendsOnly ..).posts) (.refl s)

/-! ### Frames alone outstanding -/

/-- Nothing but frames waits, and no operation is in flight. -/
structure OnlyFramesWait (s : State) : Prop where
  store     : s.noStoreWait = true
  remainder : s.shaper.remainder = none
  op        : s.shaper.op = none
  boxOp     : s.shaper.boxOp = none
  reads     : s.cartridge.waiting = []
  next      : s.placement.nextLine? = none
  cutting   : s.splitter.cutting = false ∨
    (s.window.holds s.splitter.cutPoint = false ∧ s.window.behind s.splitter.cutPoint = false)

/-- Nothing outstanding is in the tally unit. -/
theorem OnlyFramesWait.withTally {s : State} (h : OnlyFramesWait s) (x : TallyUnit) : OnlyFramesWait (s.withTally x) :=
  ⟨h.store, h.remainder, h.op, h.boxOp, h.reads, h.next, h.cutting⟩

theorem onlyFramesWait_of_nothingWaits {s : State} (hn : s.nothingWaits = true) (hs : s.noStoreWait = true)
    (hop : s.shaper.op = none) (hbox : s.shaper.boxOp = none) : OnlyFramesWait s := by
  obtain ⟨hremainder, -, hreads, hnext, hcut⟩ := nothingWaits_parts hn
  exact ⟨hs, hremainder, hop, hbox, hreads, hnext, hcut⟩

theorem onlyFramesWait_of_quiet {s : State} (h : s.quiet = true) : OnlyFramesWait s := by
  obtain ⟨-, -, -, hop, hbox, -⟩ := quiet_parts h
  obtain ⟨hn, hs⟩ := quiet_nothingWaits h
  exact onlyFramesWait_of_nothingWaits hn hs hop hbox

theorem noStoreWait_of_states {s t : State} (hr : t.shaper.records.map SegRecord.state = s.shaper.records.map SegRecord.state)
    (hb : t.shaper.boxes.map BoxRecord.state = s.shaper.boxes.map BoxRecord.state) : t.noStoreWait = s.noStoreWait := by
  have records (u : State) : u.shaper.records.all (fun r => r.state != .storeWait) =
      (u.shaper.records.map SegRecord.state).all (fun x => x != .storeWait) := by
    rw [List.all_map]
    rfl
  have boxes (u : State) : u.shaper.boxes.all (fun b => b.state != .storeWait) =
      (u.shaper.boxes.map BoxRecord.state).all (fun x => x != .storeWait) := by
    rw [List.all_map]
    rfl
  rw [State.noStoreWait, State.noStoreWait, records, records, boxes, boxes, hr, hb]

theorem Posts.onlyFramesWait {s t : State} (g : Posts s t) (h : OnlyFramesWait s) : OnlyFramesWait t where
  store := (noStoreWait_of_states g.records g.boxes).trans h.store
  remainder := g.remainder.trans h.remainder
  op := g.op.trans h.op
  boxOp := g.boxOp.trans h.boxOp
  reads := g.cartridge ▸ h.reads
  next := g.placement ▸ h.next
  cutting := by
    rw [g.splitter, g.window]
    exact h.cutting

/-! ### Waiting frames enter (R104) -/

theorem enterWaiting_posts (w : WaitingFrame) {s : State} (h : OnlyFramesWait s) : Posts s (enterWaiting w s) := by
  unfold enterWaiting
  split
  · exact .refl s
  · dsimp only
    split
    · refine Posts.trans ?_ (mapRecord_posts _ _ fun _ => rfl)
      exact withPort_posts rfl
    · refine Posts.trans ?_ (mapBox_posts _ _ fun _ => rfl)
      exact withPort_posts rfl
    · rw [pump_none (by exact h.next)]
      exact withPort_posts rfl
    all_goals exact withPort_posts rfl

theorem settleFrames_posts (n : Nat) {s : State} (h : OnlyFramesWait s) : Posts s (settleFrames n s) := by
  induction n generalizing s with
  | zero => exact .refl s
  | succ n ih =>
    unfold settleFrames
    split
    next w _ =>
      have hw := enterWaiting_posts w h
      exact hw.trans (ih (hw.onlyFramesWait h))
    · exact .refl s

theorem settleSlots_posts {s : State} (h : OnlyFramesWait s) : Posts s (settleSlots s) := settleFrames_posts _ h

theorem settle_frames {s : State} (h : OnlyFramesWait s) : settle s = settleSlots s := by
  obtain ⟨hstore, hremainder, hop, hbox, hreads, -, hcut⟩ := (settleSlots_posts h).onlyFramesWait h
  unfold settle
  rw [placeRemainder_none hremainder, resumeCutting_done hcut, grantStore_noStoreWait hstore, startMeasure_idle hop hbox,
    startNextRead_none hreads]

/-- Where frames alone are outstanding, a freeing lets waiting frames enter and does nothing else. -/
theorem settleFreed_posts {s : State} (h : OnlyFramesWait s) : Posts s (settleFreed s) := by
  unfold settleFreed
  rw [settle_frames h]
  exact .ite (settleSlots_posts h) (.refl s)

/-- Where frames alone are outstanding, an event lets waiting frames enter and does nothing else. -/
theorem finish_posts {s : State} (h : OnlyFramesWait s) : Posts s (finish s) := by
  have hslots := settleSlots_posts h
  unfold finish
  rw [settle_frames h, pump_none (hslots.onlyFramesWait h).next, startNextRead_none h.reads]
  exact .ite hslots (.refl s)

/-! ### The verdict-wait timer (R135) -/

theorem loseStation_posts (r : LineRecord) (s : State) (m : Nat) :
    Posts (s.withTally (s.tally.strike m)) (loseStation r s m) := .ite (sendNotice_posts ..) (.refl _)

/-- R135: of the roster those stay that are not lost. -/
theorem mem_loseStations {r : LineRecord} {m : Nat} (l : List Nat) (s : State) :
    m ∈ (l.foldl (loseStation r) s).tally.roster ↔ m ∈ s.tally.roster ∧ m ∉ l := by
  induction l generalizing s with
  | nil => simp
  | cons x l ih =>
    rw [List.foldl_cons, ih, (loseStation_posts r s x).tally, State.withTally_tally, mem_strike, List.mem_cons, not_or,
      and_assoc]

/-- R135: stations are lost from the roster alone, and their NOTICEs may wait. -/
theorem loseStations_rest {r : LineRecord} (l : List Nat) {s : State} (h : OnlyFramesWait s) :
    OnlyFramesWait (l.foldl (loseStation r) s) ∧
      (l.foldl (loseStation r) s).tally = { s.tally with roster := (l.foldl (loseStation r) s).tally.roster } := by
  induction l generalizing s with
  | nil => exact ⟨h, rfl⟩
  | cons x l ih =>
    have hpost := loseStation_posts r s x
    obtain ⟨hwait, htally⟩ := ih (hpost.onlyFramesWait (h.withTally _))
    refine ⟨hwait, htally.trans ?_⟩
    rw [hpost.tally]
    rfl

/-- R135: the timer runs out on a held line. -/
theorem expireVerdictWait_line {n : LineNumber} {r : LineRecord} {s : State} (h : s.tally.line? n = some r) :
    expireVerdictWait n s = (s.unanswered r).foldl (loseStation r)
      (s.withTally { s.tally with verdictWait := s.tally.verdictWait.expire }) := by
  simp [expireVerdictWait, h]

theorem exec_verdictWaitExpiry {s : State} {n : LineNumber} (hw : s.working = true)
    (hn : s.tally.verdictWait.watched = some n) :
    exec .verdictWaitExpiry s = .next (finish (expireVerdictWait n s)) := by
  refine congrArg Host.Outcome.next ?_
  simp [hn, hw]

/-- R135: a roster member that has not answered is one the timer removes. -/
theorem mem_unanswered {s : State} {r : LineRecord} {m : Nat} : m ∈ s.unanswered r ↔
    m ∈ s.tally.roster ∧ m ≠ s.port.station ∧ r.answeredBy m = false := by
  simp [State.unanswered]

/-- Settles O45: the silent members leave one after another, each with its NOTICE. -/
theorem verdictWaitExpires : Obligations.VerdictWaitExpires := by
  unfold Obligations.VerdictWaitExpires
  intro s n r hw hn hline
  let expired := s.withTally { s.tally with verdictWait := s.tally.verdictWait.expire }
  let lost := (s.unanswered r).foldl (loseStation r) expired
  have hexec : exec .verdictWaitExpiry s = .next (finish lost) := by
    rw [exec_verdictWaitExpiry hw hn, expireVerdictWait_line hline]
  have hcalm : (finish lost).calm = s.calm :=
    (finish_calm _).trans ((foldl_keeps State.calm (loseStation r) (fun _ _ => raiseNamedTrap_calm ..) _ _).trans rfl)
  refine ⟨⟨_, hexec, fun m => ?_, window_of_calm hcalm, decoder_of_calm hcalm⟩, fun hq => ⟨⟨_, hexec, ?_⟩,
    fun m hone hroom => ?_⟩⟩
  · rw [(finish_settles lost).steady.roster, mem_loseStations, mem_unanswered]
    have hroster : expired.tally.roster = s.tally.roster := rfl
    rw [hroster]
    cases r.answeredBy m <;> tauto
  · obtain ⟨hwait, htally⟩ := loseStations_rest (r := r) (s.unanswered r) (onlyFramesWait_of_quiet (s := expired) hq)
    rw [(finish_posts hwait).tally]
    exact htally
  · let struck := expired.withTally (expired.tally.strike m)
    let notice : Notice := ⟨.stationLost, r.number, r.start, r.start + 1, some m, 0⟩
    have hlost : lost = struck.withPort (s.port.enqueue (s.port.frame .notice notice.encode) false false) := by
      have hlist : s.unanswered r = [m] := hone
      unfold lost
      rw [hlist]
      have hnamed : raiseNamedTrap ⟨.stationLost, r.start, some m⟩ r.number struck = sendNotice notice struck := if_pos hw
      exact hnamed.trans (sendNotice_enters hroom)
    obtain ⟨-, -, -, -, -, hwait, -⟩ := quiet_parts hq
    rw [hexec, finish_of_eq hlost (quiet_congr hq rfl rfl rfl rfl rfl hwait)]
    rfl

end Sys2Proof.Machine
end

-- ==== proofs: a MEASURE enters, and a scan that stands ====
section
/-! A MEASURE enters the tally of the open line in copy order (R118 to R120), and the scan goes on behind it or stands at its gap
(R123, R128). -/

namespace Sys2Proof.Machine

/-! ### Copy order (R12, R118) -/

/-- R12: behind a start that is less than half the circle before both, an index is at or after another as its distance says. -/
theorem atOrAfter_iff_distance {start i j : CopyIndex} (hi : distance start i < 32768) (hj : distance start j < 32768) :
    atOrAfter i j = true ↔ distance start j ≤ distance start i := by
  unfold atOrAfter distance at *
  rw [decide_eq_true_iff]
  bv_omega

theorem distance_injective {start i j : CopyIndex} (h : distance start i = distance start j) : i = j := by
  unfold distance at h
  bv_omega

/-- R118: an item enters a tally in copy order where it stands in copy order. -/
theorem insertItem_pairwise {start : CopyIndex} {x : TallyItem} {l : List TallyItem}
    (hl : l.Pairwise (fun a b => distance start a.start < distance start b.start))
    (hnear : ∀ y ∈ x :: l, distance start y.start < 32768) (hne : ∀ y ∈ l, y.start ≠ x.start) :
    (insertItem x l).Pairwise (fun a b => distance start a.start < distance start b.start) := by
  induction l with
  | nil => exact List.pairwise_singleton ..
  | cons y l ih =>
    obtain ⟨hy, hrest⟩ := List.pairwise_cons.mp hl
    obtain ⟨hx, hnear'⟩ := List.forall_mem_cons.mp hnear
    obtain ⟨hyne, hne'⟩ := List.forall_mem_cons.mp hne
    have hord := atOrAfter_iff_distance (List.forall_mem_cons.mp hnear').1 hx
    have hdist : distance start y.start ≠ distance start x.start := fun h => hyne (distance_injective h)
    unfold insertItem
    split
    next h =>
      have hlt : distance start x.start < distance start y.start := lt_of_le_of_ne (hord.mp h) hdist.symm
      exact List.pairwise_cons.mpr ⟨List.forall_mem_cons.mpr ⟨hlt, fun z hz => hlt.trans (hy z hz)⟩, hl⟩
    next h =>
      have hlt : distance start y.start < distance start x.start := not_le.mp (mt hord.mpr h)
      refine List.pairwise_cons.mpr ⟨fun z hz => ?_,
        ih hrest (List.forall_mem_cons.mpr ⟨hx, (List.forall_mem_cons.mp hnear').2⟩) hne'⟩
      rcases mem_insertItem.mp hz with rfl | hz
      · exact hlt
      · exact hy z hz

/-! ### The open line's record -/

theorem openLine_of_lines {t u : TallyUnit} (h : t.lines = u.lines) : t.openLine? = u.openLine? := by
  rw [TallyUnit.openLine?, TallyUnit.openLine?, h]

theorem inHand_of_recast {t u : TallyUnit} (h : List.Forall₂ Recast t.lines u.lines) :
    u.inHand.length = t.inHand.length := recast_inHand h

/-- The open line's record, rewritten with its state kept, is the open line's. -/
theorem openLine_mapLine {t : TallyUnit} {r : LineRecord} {f : LineRecord → LineRecord} (h : t.openLine? = some r)
    (hf : ∀ x, (f x).state = x.state) : (t.mapLine r.number f).openLine? = some (f r) :=
  (find?_mapLine h fun x => by rw [hf]).trans (congrArg some (if_pos (beq_self_eq_true _)))

theorem changeFirst_self {α : Type} {p : α → Bool} {l : List α} {x : α} (h : l.find? p = some x) :
    changeFirst p (fun _ => x) l = l := by
  induction l with
  | nil => rfl
  | cons y l ih =>
    unfold changeFirst
    by_cases hy : p y = true
    · obtain rfl : y = x := by simpa [hy] using h
      rw [if_pos hy]
    · rw [if_neg hy, ih (by simpa [hy] using h)]

theorem changeFirst_congr {α : Type} {p : α → Bool} {f g : α → α} {l : List α} (h : ∀ x, p x = true → f x = g x) :
    changeFirst p f l = changeFirst p g l := by
  induction l with
  | nil => rfl
  | cons y l ih => unfold changeFirst; split <;> simp_all

theorem find?_self {α : Type} [DecidableEq α] {l : List α} {x : α} (h : x ∈ l) : l.find? (fun y => y == x) = some x := by
  cases hy : l.find? (fun y => y == x) with
  | none => simpa using List.find?_eq_none.mp hy x h
  | some y =>
    have hyx : (y == x) = true := List.find?_some (p := fun y => y == x) hy
    rw [eq_of_beq hyx]

theorem length_filter_changeFirst {α : Type} {p q : α → Bool} {f : α → α} {l : List α}
    (h : ∀ x, p x = true → q (f x) = q x) : ((changeFirst p f l).filter q).length = (l.filter q).length := by
  induction l with
  | nil => rfl
  | cons y l ih =>
    unfold changeFirst
    split
    next hy => rw [List.filter_cons, List.filter_cons, h y hy]; split <;> rfl
    · rw [List.filter_cons, List.filter_cons]
      split
      · exact congrArg Nat.succ ih
      · exact ih

theorem withOpen_self {t : TallyUnit} {r : LineRecord} (h : t.openLine? = some r) : t.withOpen r = t := by
  unfold TallyUnit.withOpen
  rw [changeFirst_self h]

/-! ### A line that waits for one in hand (R117) -/

/-- R117: with two lines in hand a round scans the open line and decides nothing. -/
theorem tallyRound_inHand {s : State} {r : LineRecord} (ho : s.tally.openLine? = some r) (hh : 2 ≤ s.tally.inHand.length) :
    ∃ d, (tallyRound s).tally.openLine? = some d ∧ ScanKeeps r d ∧ 2 ≤ (tallyRound s).tally.inHand.length := by
  let u := checkGapMark s
  have hgap : ∃ d, u.tally.openLine? = some d ∧ ScanKeeps r d ∧ u.tally.inHand.length = s.tally.inHand.length := by
    rcases checkGapMark_lines s with hl | ⟨x, hx, hl⟩
    · exact ⟨r, (openLine_of_lines hl).trans ho, .refl r,
        inHand_of_recast (hl ▸ List.forall₂_same.mpr fun x _ => .refl x)⟩
    · cases ho.symm.trans hx
      exact ⟨{ r with gapChecked := true }, (openLine_of_lines hl).trans (openLine_mapLine ho fun _ => rfl),
        ⟨rfl, rfl, rfl, rfl, rfl, fun _ => id, rfl, id⟩,
        inHand_of_recast (hl ▸ recast_mapLine _ _ fun _ => .of_tally rfl .rfl)⟩
  obtain ⟨d, hd, hkeep, hlen⟩ := hgap
  let v := runScan u
  have hv : v.tally.lines = (u.tally.withOpen (u.scanned d).1).lines := by
    rw [runScan_lines, hd]
  have hscan := scanned_keeps u d
  have hopened : (u.scanned d).1.state = .opened := hscan.state.trans (openLine_mem hd).2
  have hvlen : v.tally.inHand.length = s.tally.inHand.length :=
    (inHand_of_recast (hv ▸ recast_withOpen hd hscan.recast)).trans hlen
  have hround : tallyRound s = v := by
    have hmay : v.tally.mayDecide = false := decide_eq_false (by omega)
    change decideIfDue v = v
    unfold decideIfDue
    repeat' split
    all_goals simp_all
  exact ⟨_, hround ▸ (openLine_of_lines hv).trans (openLine_withOpen hd hopened), hkeep.trans hscan, by
    rw [hround]; omega⟩

/-- R117: with two lines in hand the open line is scanned and stays open. -/
theorem settleTally_inHand {s : State} {r : LineRecord} (ho : s.tally.openLine? = some r) (hh : 2 ≤ s.tally.inHand.length) :
    ∃ d, (settleTally s).tally.openLine? = some d ∧ ScanKeeps r d := by
  obtain ⟨d1, ho1, hk1, hh1⟩ := tallyRound_inHand ho hh
  obtain ⟨d2, ho2, hk2, hh2⟩ := tallyRound_inHand ho1 hh1
  obtain ⟨d3, ho3, hk3, -⟩ := tallyRound_inHand ho2 hh2
  unfold settleTally
  dsimp only
  split
  · refine ⟨d3, ?_, hk1.trans (hk2.trans hk3)⟩
    split
    · exact (openLine_of_lines (timeCoverage_settles ..).lines).trans ho3
    · exact ho3
  · exact ⟨r, ho, .refl r⟩

/-! ### A scan that stands at its gap (R123, R128) -/

theorem itemsFrom_held {w : Window} {i : CopyIndex} {it : Item} (h : w.item? i = some it) :
    ∃ rest, w.itemsFrom i = (i, it) :: rest := by
  obtain ⟨hlt, hit⟩ := List.getElem?_eq_some_iff.mp h
  have hholds : w.holds i = true := decide_eq_true hlt
  refine ⟨enumItems (i + 1) (w.items.drop (distance w.oldest i + 1)), ?_⟩
  rw [Window.itemsFrom, if_pos hholds, List.drop_eq_getElem_cons hlt, hit]
  rfl

/-- R123: a scan that stands at a character no segment starts at stops there, its parameters filled in. -/
theorem scanned_gap {s : State} {r : LineRecord} {it : Item} {code : Nat} (hp : r.params.isSome = true)
    (hover : r.overfull = false) (hit : s.window.item? r.scan.point = some it) (hbody : it.body = .character code)
    (hseg : r.segmentAt? r.scan.point = none) :
    s.scanned r = ({ r with scan := { r.scan with stop := .gap } }, none) := by
  obtain ⟨p, hp⟩ := Option.isSome_iff_exists.mp hp
  have hfill : r.fill s.window = r := by simp [LineRecord.fill, hp]
  obtain ⟨rest, hitems⟩ := itemsFrom_held hit
  simp [State.scanned, hfill, hitems, scanItems, hover, hbody, hseg]

/-- R18, R116: no gap of a record checked before is due. -/
theorem checkGapMark_checked {s : State} {r : LineRecord} (ho : s.tally.openLine? = some r)
    (h : ∀ x ∈ s.tally.lines, x.number = r.number → x.gapChecked = true) : checkGapMark s = s := by
  have hdue : r.gapsDue s.window = [] := if_pos (h r (openLine_mem ho).1 rfl)
  have hmark : s.tally.mapLine r.number (fun x => { x with gapChecked := true }) = s.tally := by
    unfold TallyUnit.mapLine
    have hsame : s.tally.lines.map (fun x => if x.number == r.number then { x with gapChecked := true } else x) =
        s.tally.lines := by
      refine (List.map_congr_left fun x hx => ?_).trans (List.map_id _)
      split
      next hn =>
        rw [← h x hx (eq_of_beq hn)]
        rfl
      · rfl
    rw [hsame]
  unfold checkGapMark
  simp only [ho, hdue, hmark, List.foldl_nil]
  exact ite_self _

/-- R123: a round in which nothing is left to check, to scan or to decide changes nothing. -/
theorem tallyRound_stands {s : State} {r : LineRecord} (ho : s.tally.openLine? = some r) (hgap : checkGapMark s = s)
    (hscan : s.scanned r = (r, none)) (hdecide : r.decidable = false) : tallyRound s = s := by
  have hrun : runScan s = s := by
    simp only [runScan, ho, hscan, withOpen_self ho]
    rfl
  unfold tallyRound decideIfDue
  rw [hgap, hrun, ho]
  dsimp only
  split
  · exact if_neg (by simp [hdecide])
  · rfl

/-- R128: where the rounds change nothing the coverage timer alone is set. -/
theorem settleTally_stands {s : State} (hw : s.working = true) (h : tallyRound s = s) :
    settleTally s = s.withTally (s.tally.timeCoverage s.tally.waitingGap) := by
  unfold settleTally
  simp only [h, hw, if_true]

/-! ### A MEASURE that enters (R118 to R120) -/

theorem owning_congr {t u : TallyUnit} (h : t.lines = u.lines) (i : CopyIndex) : t.owning? i = u.owning? i := by
  simp only [TallyUnit.owning?, TallyUnit.openLine?, TallyUnit.inHand, h]

theorem restartCoverage_lines (t : TallyUnit) : t.restartCoverage.lines = t.lines := by
  unfold TallyUnit.restartCoverage
  split <;> rfl

/-- R118: an item enters a tally that has room. -/
theorem enter_of_room {r : LineRecord} {g : SegItem} (h : r.tally.length < 48) :
    r.enter g = { r with tally := insertItem (.segment g) r.tally } := if_pos h

/-- R120: a MEASURE that overlaps no item of a tally with room is entered. -/
theorem takeMeasure_apart {s : State} {r : LineRecord} {g : SegItem}
    (hall : r.tally.all (fun x => !rangesOverlap x.start x.range g.start g.count) = true) (hlen : r.tally.length < 48) :
    takeMeasure r g s = s.withTally (s.tally.changeLine r (fun x => x.enter g)) := by
  have hapart : ∀ x ∈ r.tally, x.overlaps g = false := by simpa [TallyItem.overlaps] using hall
  have hclash : r.tally.find? (fun x => x.overlaps g && x.sender? != some g.sender) = none :=
    List.find?_eq_none.mpr fun x hx => by simp [hapart x hx]
  have hown : r.tally.filter (fun x => x.overlaps g) = [] :=
    List.filter_eq_nil_iff.mpr fun x hx => by simp [hapart x hx]
  simp only [takeMeasure, hclash, hown, if_true]
  exact if_pos hlen

/-- The state a MEASURE that enters leaves before the tally is settled. -/
def State.entered (s : State) (r : LineRecord) (g : SegItem) : State :=
  s.popped.withTally (s.tally.restartCoverage.changeLine r (fun x => x.enter g))

theorem exec_measureFrame {s : State} {f : Frame} {rest : List Frame} {m : MeasureMsg} {r : LineRecord} {g : SegItem}
    (hw : s.working = true) (hr : s.port.rx = f :: rest) (hc : f.cls = .measure)
    (hparse : MeasureMsg.parse f.payload = some m) (hadmit : s.window.admits m.start m.count = true)
    (hown : s.tally.owning? m.start = some r)
    (hall : r.tally.all (fun x => !rangesOverlap x.start x.range m.start m.count) = true) (hlen : r.tally.length < 48)
    (hg : g = ⟨f.sender, m.start, m.count, m.level, m.width, m.opps, m.elongCount, m.elongWidth, m.continues, none⟩) :
    exec .measureFrame s = .next (finish (settleTally (s.entered r g))) := by
  have hw' : s.popped.working = true := hw
  have hown' : s.tally.restartCoverage.owning? m.start = some r := (owning_congr (restartCoverage_lines _) _).trans hown
  have hall' : r.tally.all (fun x => !rangesOverlap x.start x.range g.start g.count) = true := by rw [hg]; exact hall
  have hroute : routeMeasure f.sender m (s.popped.withTally s.popped.tally.restartCoverage) = s.entered r g := by
    simp only [routeMeasure, State.withTally, popped_window, popped_tally, hadmit, hown', if_true, ← hg]
    exact takeMeasure_apart hall' hlen
  have hact : handleMeasure f s.popped = settleTally (s.entered r g) := by
    simp only [handleMeasure, hparse, hw', if_true, hroute]
  exact congrArg Host.Outcome.next ((takeHead_popped hr hc (takes_of_working hw)).trans (congrArg finish hact))

theorem entered_lines (s : State) (r : LineRecord) (g : SegItem) :
    (s.entered r g).tally.lines = changeFirst (fun x => x == r) (fun x => x.enter g) s.tally.lines := by
  rw [← restartCoverage_lines s.tally]
  rfl

theorem openLine_entered {s : State} {r : LineRecord} {g : SegItem} (ho : s.tally.openLine? = some r)
    (hlen : r.tally.length < 48) : (s.entered r g).tally.openLine? = some (r.enter g) := by
  have hopened : (r.enter g).state = .opened := by
    rw [enter_of_room hlen]
    exact (openLine_mem ho).2
  unfold TallyUnit.openLine? at *
  rw [entered_lines]
  exact find?_changeFirst_same (find?_self (List.mem_of_find?_eq_some ho)) ho (by simp [hopened])

theorem inHand_entered {s : State} {r : LineRecord} {g : SegItem} (hlen : r.tally.length < 48) :
    (s.entered r g).tally.inHand.length = s.tally.inHand.length := by
  have hkept : ∀ x, (x == r) = true → ((x.enter g).state != .opened) = (x.state != .opened) := fun x hx => by
    rw [eq_of_beq hx, enter_of_room hlen]
  rw [TallyUnit.inHand, entered_lines]
  exact length_filter_changeFirst hkept

/-- R118 to R120: a MEASURE that enters while two lines are in hand. -/
theorem measure_enters_inHand {s : State} {r : LineRecord} {g : SegItem} (ho : s.tally.openLine? = some r)
    (hlen : r.tally.length < 48) (hh : 2 ≤ s.tally.inHand.length) :
    ∃ d, (finish (settleTally (s.entered r g))).tally.openLine? = some d ∧ ScanKeeps (r.enter g) d := by
  have hh' : 2 ≤ (s.entered r g).tally.inHand.length := (inHand_entered hlen).symm ▸ hh
  obtain ⟨d, hd, hkeeps⟩ := settleTally_inHand (openLine_entered ho hlen) hh'
  exact ⟨d, (openLine_of_lines (finish_settles _).lines).trans hd, hkeeps⟩

/-- R123: an item that starts elsewhere fills no gap. -/
theorem segmentAt?_insertItem {r : LineRecord} {x : TallyItem} {i : CopyIndex} (h : r.segmentAt? i = none)
    (hx : x.start ≠ i) : ({ r with tally := insertItem x r.tally } : LineRecord).segmentAt? i = none := by
  unfold LineRecord.segmentAt? at *
  refine List.find?_eq_none.mpr fun y hy => ?_
  rcases mem_insertItem.mp hy with rfl | hy
  · simp [hx]
  · exact List.find?_eq_none.mp h y hy

/-- R128: a timer restarted at a gap the line still waits at runs its first stage. -/
theorem timeCoverage_restarted {t : TallyUnit} {g : LineNumber × CopyIndex} (hg : t.waitingGap = some g)
    (hcov : t.coverage = .idle ∨ t.coverage = .first) : t.timeCoverage t.waitingGap = { t with coverage := .first } := by
  simp only [TallyUnit.timeCoverage, hg]
  split
  next h => rw [← hcov.resolve_left h.2]
  · rfl

theorem restartCoverage_coverage (t : TallyUnit) :
    t.restartCoverage.coverage = .idle ∨ t.restartCoverage.coverage = .first := by
  unfold TallyUnit.restartCoverage
  split
  next h => exact .inl h
  · exact .inr rfl

/-- R123, R128: a MEASURE that enters behind the gap its line waits at restarts the coverage timer, and that is all. -/
theorem settleTally_entered {s : State} {r : LineRecord} {g : SegItem} {it : Item} {code : Nat} (hw : s.working = true)
    (ho : s.tally.openLine? = some r) (hlen : r.tally.length < 48)
    (hchecked : s.tally.lines.all (fun x => x.gapChecked) = true) (hp : r.params.isSome = true)
    (hstop : r.scan.stop = .gap) (hover : r.overfull = false) (hit : s.window.item? r.scan.point = some it)
    (hbody : it.body = .character code) (hseg : r.segmentAt? r.scan.point = none) (hne : g.start ≠ r.scan.point) :
    settleTally (s.entered r g) = s.popped.withTally { s.tally with
      coverage := .first
      lines := changeFirst (fun x => x == r) (fun x => { x with tally := insertItem (.segment g) x.tally })
        s.tally.lines } := by
  have ho' := openLine_entered (g := g) ho hlen
  have henter := enter_of_room (g := g) hlen
  have hmem := (openLine_mem ho).1
  have hall : ∀ x ∈ s.tally.lines, x.gapChecked = true := List.all_eq_true.mp hchecked
  have hgap : checkGapMark (s.entered r g) = s.entered r g := by
    refine checkGapMark_checked ho' fun x hx _ => ?_
    rw [entered_lines] at hx
    rcases mem_changeFirst hx with hx | ⟨y, hy, -, rfl⟩
    · exact hall x hx
    · unfold LineRecord.enter
      split <;> exact hall y hy
  have hscan : (s.entered r g).scanned (r.enter g) = (r.enter g, none) := by
    rw [henter]
    refine (scanned_gap (s := s.entered r g) (r := { r with tally := insertItem (.segment g) r.tally }) hp hover
      hit hbody (segmentAt?_insertItem (x := .segment g) hseg hne)).trans ?_
    rw [← hstop]
  have hdecide : (r.enter g).decidable = false := by
    rw [henter]
    unfold LineRecord.decidable
    rw [show ({ r with tally := insertItem (.segment g) r.tally } : LineRecord).overfull = false from hover]
    simp [hstop]
  have hwait : (s.entered r g).tally.waitingGap = some (r.number, r.scan.point) := by
    simp only [TallyUnit.waitingGap, ho', henter, hstop, if_true]
  have hcov : (s.entered r g).tally.coverage = .idle ∨ (s.entered r g).tally.coverage = .first :=
    restartCoverage_coverage s.tally
  rw [settleTally_stands (s := s.entered r g) hw (tallyRound_stands ho' hgap hscan hdecide),
    timeCoverage_restarted hwait hcov]
  have hlines : changeFirst (fun x => x == r) (fun x => x.enter g) s.tally.lines =
      changeFirst (fun x => x == r) (fun x => { x with tally := insertItem (.segment g) x.tally }) s.tally.lines :=
    changeFirst_congr fun x hx => enter_of_room (by rw [eq_of_beq hx]; exact hlen)
  unfold State.entered TallyUnit.changeLine TallyUnit.restartCoverage
  rw [← hlines]
  split <;> rfl

/-- Settles O37: a MEASURE that overlaps nothing enters in copy order, behind which the scan goes on or stands. -/
theorem measureEnters : Obligations.MeasureEnters := by
  unfold Obligations.MeasureEnters
  refine ⟨fun start x l hl hnear hne => ⟨insertItem_pairwise hl hnear hne, insertItem_perm x l⟩, ?_⟩
  intro s f rest m r g hw hr hc hparse hadmit hown ho hall hlen hg
  have hexec := exec_measureFrame hw hr hc hparse hadmit hown hall hlen hg
  refine ⟨fun hh => ?_, fun it code hq hchecked hp hstop hover hit hbody hseg hne => ?_⟩
  · obtain ⟨d, hd, hkeeps⟩ := measure_enters_inHand (g := g) ho hlen hh
    rw [enter_of_room hlen] at hkeeps
    have hcalm : (finish (settleTally (s.entered r g))).calm = s.calm := by
      rw [finish_calm, settleTally_calm]
      rfl
    exact ⟨_, d, hexec, hd, hkeeps.number, hkeeps.gen, hkeeps.start,
      fun x hx => hkeeps.items x (mem_insertItem.mpr (.inr hx)), hkeeps.segments, window_of_calm hcalm,
      congrArg Fixed.decoder (fixed_of_calm hcalm)⟩
  · have hstart : g.start ≠ r.scan.point := by rw [hg]; exact hne
    rw [hexec]
    exact congrArg Host.Outcome.next
      (finish_of_eq (settleTally_entered hw ho hlen hchecked hp hstop hover hit hbody hseg hstart) (quiet_withTally hq _))

end Sys2Proof.Machine
end

-- ==== proofs: recalled lines and lines a kill opens ====
section
/-! The first recall sets a line OPEN at generation 1 (R137, R164, R165), and a kill whose PARA is held opens the next line
(R116, R169). -/

namespace Sys2Proof.Machine

/-! ### A line among the records -/

/-- What no scan and no decision changes of a line's record. -/
structure SameLine (r d : LineRecord) : Prop where
  number    : d.number = r.number
  gen       : d.gen = r.gen
  start     : d.start = r.start
  inherited : d.inherited = r.inherited

theorem SameLine.refl (r : LineRecord) : SameLine r r := ⟨rfl, rfl, rfl, rfl⟩

theorem SameLine.trans {r d e : LineRecord} (h : SameLine r d) (g : SameLine d e) : SameLine r e :=
  ⟨g.number.trans h.number, g.gen.trans h.gen, g.start.trans h.start, g.inherited.trans h.inherited⟩

theorem ScanKeeps.sameLine {r d : LineRecord} (h : ScanKeeps r d) : SameLine r d := ⟨h.number, h.gen, h.start, h.inherited⟩

/-- The first record of `r`'s number is of `r`'s line. -/
def HasLine (r : LineRecord) (l : List LineRecord) : Prop :=
  ∃ d, l.find? (fun x => x.number == r.number) = some d ∧ SameLine r d

theorem HasLine.of_eq {r : LineRecord} {l m : List LineRecord} (h : HasLine r l) (hl : m = l) : HasLine r m := hl ▸ h

theorem HasLine.append {r : LineRecord} {l : List LineRecord} (h : HasLine r l) (m : List LineRecord) :
    HasLine r (l ++ m) := by
  obtain ⟨d, hd, hsame⟩ := h
  exact ⟨d, by rw [List.find?_append, hd, Option.some_or], hsame⟩

/-- A record behind others of other numbers is found. -/
theorem hasLine_behind {r : LineRecord} {l : List LineRecord} (h : ∀ x ∈ l, x.number ≠ r.number) : HasLine r (l ++ [r]) := by
  have hnone : l.find? (fun x => x.number == r.number) = none := List.find?_eq_none.mpr fun x hx => by simpa using h x hx
  exact ⟨r, by simp [List.find?_append, hnone], .refl r⟩

theorem HasLine.mapLine {r : LineRecord} {t : TallyUnit} (h : HasLine r t.lines) (n : LineNumber)
    {f : LineRecord → LineRecord} (hf : ∀ x, SameLine x (f x)) : HasLine r (t.mapLine n f).lines := by
  obtain ⟨d, hd, hsame⟩ := h
  refine ⟨_, find?_mapLine hd fun x => by rw [(hf x).number], ?_⟩
  split
  · exact hsame.trans (hf d)
  · exact hsame

/-- A rewritten element that stays of its kind is found as it was, unless it is the one found. -/
theorem find?_changeFirst_kept {α : Type} {p q : α → Bool} {f : α → α} {l : List α} {x y : α} (hp : l.find? p = some x)
    (hq : l.find? q = some y) (hf : q (f x) = q x) :
    (changeFirst p f l).find? q = some y ∨ (y = x ∧ (changeFirst p f l).find? q = some (f x)) := by
  induction l with
  | nil => cases hp
  | cons z l ih =>
    by_cases hz : p z = true
    · obtain rfl : z = x := by simpa [hz] using hp
      simp only [changeFirst, hz, if_true]
      by_cases hqz : q z = true
      · exact .inr ⟨by simpa [hqz] using hq.symm, List.find?_cons_of_pos (hf.trans hqz)⟩
      · rw [List.find?_cons_of_neg hqz] at hq
        exact .inl ((List.find?_cons_of_neg (by rwa [hf])).trans hq)
    · rw [List.find?_cons_of_neg hz] at hp
      simp only [changeFirst, if_neg hz]
      by_cases hqz : q z = true
      · rw [List.find?_cons_of_pos hqz] at hq ⊢
        exact .inl hq
      · rw [List.find?_cons_of_neg hqz] at hq ⊢
        exact ih hp hq

/-- The open line's record gives way to one of its line. -/
theorem HasLine.withOpen {r x c : LineRecord} {t : TallyUnit} (h : HasLine r t.lines) (ho : t.openLine? = some x)
    (hc : SameLine x c) : HasLine r (t.withOpen c).lines := by
  obtain ⟨d, hd, hsame⟩ := h
  rcases find?_changeFirst_kept (f := fun _ => c) ho hd (by rw [hc.number]) with hfind | ⟨rfl, hfind⟩
  · exact ⟨d, hfind, hsame⟩
  · exact ⟨c, hfind, hsame.trans hc⟩

theorem checkGapMark_hasLine {r : LineRecord} {s : State} (h : HasLine r s.tally.lines) :
    HasLine r (checkGapMark s).tally.lines := by
  rcases checkGapMark_lines s with hl | ⟨x, -, hl⟩
  · exact h.of_eq hl
  · exact (h.mapLine x.number (f := fun x => { x with gapChecked := true }) fun _ => ⟨rfl, rfl, rfl, rfl⟩).of_eq hl

theorem runScan_hasLine {r : LineRecord} {s : State} (h : HasLine r s.tally.lines) : HasLine r (runScan s).tally.lines := by
  refine HasLine.of_eq ?_ (runScan_lines s)
  split
  next x ho => exact h.withOpen ho (scanned_keeps s x).sameLine
  · exact h

theorem decideIfDue_hasLine {r : LineRecord} {s : State} (h : HasLine r s.tally.lines) :
    HasLine r (decideIfDue s).tally.lines := by
  unfold decideIfDue
  split
  next x ho =>
    split
    next p _ =>
      split
      · obtain ⟨b, st, c, hl⟩ := decideLine_lines x p s
        have hdecided := h.withOpen (c := x.decidedAt b st) ho ⟨rfl, rfl, rfl, rfl⟩
        have hplaced := hdecided.mapLine x.number (f := fun x => { x with placed := c }) fun _ => ⟨rfl, rfl, rfl, rfl⟩
        exact (hplaced.append _).of_eq hl
      · exact h
    · exact h
  · exact h

theorem tallyRound_hasLine {r : LineRecord} {s : State} (h : HasLine r s.tally.lines) : HasLine r (tallyRound s).tally.lines :=
  decideIfDue_hasLine (runScan_hasLine (checkGapMark_hasLine h))

/-- R117: settling the tally leaves each line its number, generation and start. -/
theorem settleTally_hasLine {r : LineRecord} {s : State} (h : HasLine r s.tally.lines) :
    HasLine r (settleTally s).tally.lines := by
  have rounds := tallyRound_hasLine (tallyRound_hasLine (tallyRound_hasLine h))
  unfold settleTally
  split
  · dsimp only
    split
    · exact rounds.of_eq (timeCoverage_settles ..).lines
    · exact rounds
  · exact h

/-! ### The first recall (R137, R164, R165) -/

/-- R164: a RECALL of generation 0 that matches a line held at generation 0 is its first, with no kill in progress. -/
theorem matchRecall_first {s : State} {n : Nat} {m : RecallMsg} {r : LineRecord} (htaken : s.tally.isTaken m.line = false)
    (hline : s.tally.line? m.line = some r) (hstart : r.start = m.start) (hgen : m.gen = 0) (hr : r.gen = 0)
    (hkill : s.condition.kill = none) : matchRecall n m s = firstRecall r s := by
  simp [matchRecall, htaken, hline, hstart, hgen, hr, State.beforeKill, hkill]

/-- R137: the recalled line's record comes behind those of other numbers. -/
theorem recalledLines_hasLine (r : LineRecord) (l : List LineRecord) : HasLine r.reopened (recalledLines r l) := by
  refine hasLine_behind fun x hx => ?_
  have hne := List.mem_takeWhile_imp (p := fun x : LineRecord => x.number != r.number) hx
  exact bne_iff_ne.mp hne

theorem recallBlocks_lines (r : LineRecord) (s : State) :
    (recallBlocks r s).tally.lines = recalledLines r s.tally.lines := by
  have cuts (u : State) : Settles u (undoCuts r.number u) :=
    (Settles.ite (abandonShaping_settles _) (.refl _)).trans (withShaper_settles ..)
  unfold recallBlocks
  exact (cuts _).lines

/-- R137, R165: a first recall leaves the recalled line held. -/
theorem firstRecall_hasLine (r : LineRecord) (s : State) : HasLine r.reopened (firstRecall r s).tally.lines := by
  unfold firstRecall
  dsimp only
  refine settleTally_hasLine ?_
  rw [(checkWaitingStore_settles _).lines, (Settles.foldl publish_settles _ _).lines, (settleFreed_settles _).lines,
    recallBlocks_lines]
  exact recalledLines_hasLine r _

/-! ### A recalled line waits for coverage (R123, R128, R165) -/

theorem Posts.changeTally {s t : State} (h : Posts s t) (f : TallyUnit → TallyUnit) :
    Posts (s.withTally (f s.tally)) (t.withTally (f t.tally)) :=
  ⟨congrArg f h.tally, h.placement, h.window, h.splitter, h.cartridge, h.condition, h.leaving, h.remainder, h.op, h.boxOp,
    h.records, h.boxes⟩

/-- R18: the gap mark check marks the line checked; COPY GAP sends frames alone. -/
theorem checkGapMark_posts {s : State} {r : LineRecord} (ho : s.tally.openLine? = some r)
    (hh : s.window.holds r.start = true) :
    Posts (s.withTally (s.tally.mapLine r.number (fun x => { x with gapChecked := true }))) (checkGapMark s) := by
  unfold checkGapMark
  simp only [ho, hh, if_true]
  exact .foldl (fun _ _ => raise_copyGap_posts rfl _) _ _

/-- The record of a number, behind others of other numbers, is rewritten. -/
theorem mapLine_behind {t : TallyUnit} {front : List LineRecord} {d : LineRecord} (hl : t.lines = front ++ [d])
    (hfront : ∀ x ∈ front, x.number ≠ d.number) (f : LineRecord → LineRecord) :
    t.mapLine d.number f = { t with lines := front ++ [f d] } := by
  have hsame : front.map (fun x => if x.number == d.number then f x else x) = front := by
    refine (List.map_congr_left fun x hx => ?_).trans (List.map_id _)
    exact if_neg (by simpa using hfront x hx)
  rw [TallyUnit.mapLine, hl, List.map_append, hsame]
  simp

/-- The open line's record, behind lines in hand, gives way to another. -/
theorem withOpen_behind {t : TallyUnit} {front : List LineRecord} {d : LineRecord} (hl : t.lines = front ++ [d])
    (hfront : NoneOpen front) (hd : d.state = .opened) (c : LineRecord) :
    t.withOpen c = { t with lines := front ++ [c] } := by
  unfold TallyUnit.withOpen
  rw [hl, changeFirst_append_single _ (fun y hy => by simpa using hfront y hy) (by simpa using hd)]

theorem openLine_behind {t : TallyUnit} {front : List LineRecord} {d : LineRecord} (hl : t.lines = front ++ [d])
    (hfront : NoneOpen front) (hd : d.state = .opened) : t.openLine? = some d := by
  have hnone : front.find? (fun r => r.state == .opened) = none := List.find?_eq_none.mpr fun x hx => by
    simpa using hfront x hx
  simp [TallyUnit.openLine?, hl, List.find?_append, hnone, hd]

/-- The record of a line that waits for coverage at its start. -/
def LineRecord.atStartGap (d : LineRecord) : LineRecord :=
  { d with gapChecked := true, scan := ⟨d.start, 0, 0, [], .gap⟩ }

section
variable {s : State} {front : List LineRecord} {d : LineRecord} {it : Item} {code : Nat}

/-- R125: a line with nothing passed is not overfull. -/
theorem overfull_nothing_passed {r : LineRecord} (h : r.scan.width = 0) : r.overfull = false := by
  unfold LineRecord.overfull
  split
  · simp [h]
  · rfl

/-- R123: a line without items whose scan stands at a character, at its start, waits for coverage there. -/
theorem scanned_atStartGap {r : LineRecord} (hp : r.params.isSome = true) (htally : r.tally = [])
    (hit : s.window.item? r.start = some it) (hbody : it.body = .character code) (hpoint : r.scan.point = r.start)
    (hwidth : r.scan.width = 0) (hshrink : r.scan.shrink = 0) (hopps : r.scan.opps = []) :
    s.scanned r = ({ r with scan := ⟨r.start, 0, 0, [], .gap⟩ }, none) := by
  rw [scanned_gap hp (overfull_nothing_passed hwidth) (hpoint ▸ hit) hbody (by simp [LineRecord.segmentAt?, htally])]
  have hscan : { r.scan with stop := .gap } = (⟨r.start, 0, 0, [], .gap⟩ : Scan) := by
    rw [← hpoint, ← hwidth, ← hopps]
    simp [hwidth, hshrink]
  rw [hscan]

/-- R123: a round in which the open line waits at its start changes nothing. -/
theorem tallyRound_atStartGap (hl : s.tally.lines = front ++ [d.atStartGap]) (hopen : NoneOpen front)
    (hnumber : ∀ x ∈ front, x.number ≠ d.number) (hd : d.state = .opened) (hp : d.params.isSome = true)
    (htally : d.tally = []) (hit : s.window.item? d.start = some it) (hbody : it.body = .character code) :
    tallyRound s = s := by
  have ho := openLine_behind hl hopen hd
  have hgap : checkGapMark s = s := by
    refine checkGapMark_checked ho fun x hx hn => ?_
    rw [hl] at hx
    rcases List.mem_append.mp hx with hx | hx
    · exact absurd hn (hnumber x hx)
    · rw [List.mem_singleton.mp hx]
      rfl
  have hscan : s.scanned d.atStartGap = (d.atStartGap, none) :=
    scanned_atStartGap (r := d.atStartGap) hp htally hit hbody rfl rfl rfl rfl
  have hdecide : d.atStartGap.decidable = false := by
    simp [LineRecord.decidable, LineRecord.atStartGap]
  exact tallyRound_stands ho hgap hscan hdecide

/-- R123: the round in which a line opens for coverage checks its gap mark, scans it to its start, and decides nothing. -/
theorem tallyRound_opens (hl : s.tally.lines = front ++ [d]) (hopen : NoneOpen front)
    (hnumber : ∀ x ∈ front, x.number ≠ d.number) (hd : d.state = .opened) (hp : d.params.isSome = true)
    (htally : d.tally = []) (hscan : d.scan = Scan.atStart d.start) (hit : s.window.item? d.start = some it)
    (hbody : it.body = .character code) :
    Posts (s.withTally { s.tally with lines := front ++ [d.atStartGap] }) (tallyRound s) := by
  let checked := { d with gapChecked := true }
  let u := checkGapMark s
  have hholds : s.window.holds d.start = true := by
    by_contra hno
    rw [item_none_of_not_held (by simpa using hno)] at hit
    cases hit
  have hgap : Posts (s.withTally { s.tally with lines := front ++ [checked] }) u := by
    rw [← mapLine_behind hl hnumber (fun x => { x with gapChecked := true })]
    exact checkGapMark_posts (openLine_behind hl hopen hd) hholds
  have hul : u.tally.lines = front ++ [checked] := by rw [hgap.tally]; rfl
  have huo : u.tally.openLine? = some checked := openLine_behind hul hopen hd
  have hscanned : u.scanned checked = (d.atStartGap, none) :=
    scanned_atStartGap (r := checked) hp htally (hgap.window ▸ hit) hbody (by rw [hscan]; rfl) (by rw [hscan]; rfl)
      (by rw [hscan]; rfl) (by rw [hscan]; rfl)
  let v := u.withTally { u.tally with lines := front ++ [d.atStartGap] }
  have hrun : runScan u = v := by
    simp only [runScan, huo, hscanned]
    rw [withOpen_behind hul hopen hd]
  have hvo : v.tally.openLine? = some d.atStartGap := openLine_behind (t := v.tally) rfl hopen hd
  have hround : tallyRound s = v := by
    have hdecide : d.atStartGap.decidable = false := by simp [LineRecord.decidable, LineRecord.atStartGap]
    change decideIfDue (runScan u) = v
    rw [hrun]
    unfold decideIfDue
    rw [hvo]
    dsimp only
    split
    · exact if_neg (by simp [hdecide])
    · rfl
  rw [hround]
  exact hgap.changeTally (fun t => { t with lines := front ++ [d.atStartGap] })

/-- R123, R128: a line that opens at a character waits for coverage, and the coverage timer starts. -/
theorem settleTally_opens (hw : s.working = true) (hl : s.tally.lines = front ++ [d]) (hopen : NoneOpen front)
    (hnumber : ∀ x ∈ front, x.number ≠ d.number) (hd : d.state = .opened) (hp : d.params.isSome = true)
    (htally : d.tally = []) (hscan : d.scan = Scan.atStart d.start) (hit : s.window.item? d.start = some it)
    (hbody : it.body = .character code) :
    Posts (s.withTally { s.tally with lines := front ++ [d.atStartGap], coverage := .first }) (settleTally s) := by
  have hround := tallyRound_opens hl hopen hnumber hd hp htally hscan hit hbody
  let u := tallyRound s
  have hul : u.tally.lines = front ++ [d.atStartGap] := by rw [hround.tally]; rfl
  have hagain : tallyRound u = u :=
    tallyRound_atStartGap hul hopen hnumber hd hp htally (hround.window ▸ hit) hbody
  have huw : u.working = true := hround.working.trans hw
  have hbefore : s.tally.waitingGap = none := by
    simp [TallyUnit.waitingGap, openLine_behind hl hopen hd, hscan, Scan.atStart]
  have hcov : u.tally.timeCoverage none = { u.tally with coverage := .first } := by
    have hgap : u.tally.waitingGap = some (d.number, d.start) := by
      simp only [TallyUnit.waitingGap, openLine_behind hul hopen hd]
      rfl
    simp [TallyUnit.timeCoverage, hgap]
  have hthree : tallyRound (tallyRound (tallyRound s)) = u := by rw [hagain, hagain]
  have hsettle : settleTally s = u.withTally { u.tally with coverage := .first } := by
    unfold settleTally
    simp only [hw, hthree, huw, if_true, hbefore, hcov]
  rw [hsettle]
  exact hround.changeTally (fun t => { t with coverage := .first })

end

/-! ### The first recall with nothing outstanding (R137, R150, R165) -/

/-- R78: the shaper's records once the cuts of line `n` and later lines are undone. -/
def Shaper.uncut (h : Shaper) (n : LineNumber) : Shaper :=
  { h with
    records := (h.records.filter (fun r => !h.pieceAt n r.start)).map (fun r => if r.cutFrom n then r.rejoined else r)
    remainder := h.remainder.filter (fun r => !h.pieceAt n r.start) }

/-- R78: with no shaping operation, undoing cuts changes the shaper's records alone. -/
theorem undoCuts_idle {s : State} {n : LineNumber} (hop : s.shaper.op = none) :
    undoCuts n s = s.withShaper (s.shaper.uncut n) := by
  unfold undoCuts
  dsimp only
  rw [if_neg (by simp [hop])]
  rfl

/-- R78: a record cut is not one that waits for store room, nor does it become one. -/
theorem noStoreWait_uncut {s : State} {n : LineNumber} (h : s.noStoreWait = true) :
    (s.withShaper (s.shaper.uncut n)).noStoreWait = true := by
  simp only [State.noStoreWait, Bool.and_eq_true, List.all_eq_true, bne_iff_ne] at h ⊢
  obtain ⟨hrecords, hboxes⟩ := h
  refine ⟨fun x hx => ?_, hboxes⟩
  obtain ⟨y, hy, rfl⟩ := List.mem_map.mp hx
  split
  · nofun
  · exact hrecords y (List.mem_of_mem_filter hy)

/-- R150: releasing placement states leaves no PLACE frame to build where none was. -/
theorem nextLine?_release {u : PlacementUnit} (h : u.nextLine? = none) (which : LineNumber → Bool) :
    (u.release which).nextLine? = none := by
  have hlines : (u.release which).lines = u.lines.filter (fun p => !which p.number) := (endFinishing_rest ..).1
  unfold PlacementUnit.nextLine? at *
  rw [hlines]
  exact List.find?_eq_none.mpr fun p hp => List.find?_eq_none.mp h p (List.mem_of_mem_filter hp)

/-- R165: what a recall leaves in the tally unit. -/
def TallyUnit.recalled (t : TallyUnit) (r : LineRecord) : TallyUnit :=
  { t with
    lines := recalledLines r t.lines
    coverage := .idle
    verdictWait := t.verdictWait.cancel (fromLine r.number)
    fence := some r.number }

section
variable {s : State} (r : LineRecord)

/-- R165: with no shaping operation a recall leaves these units as written here, and the rest that can wait as it was. -/
theorem recallBlocks_units (hop : s.shaper.op = none) :
    (recallBlocks r s).tally = s.tally.recalled r ∧
      (recallBlocks r s).placement = s.placement.release (fromLine r.number) ∧
      (recallBlocks r s).shaper = s.shaper.uncut r.number ∧ (recallBlocks r s).window = s.window ∧
      (recallBlocks r s).working = s.working := by
  unfold recallBlocks
  rw [undoCuts_idle (by exact hop)]
  exact ⟨rfl, rfl, rfl, rfl, rfl⟩

theorem recallBlocks_onlyFramesWait (h : OnlyFramesWait s) : OnlyFramesWait (recallBlocks r s) := by
  obtain ⟨hstore, hremainder, hop, hbox, hreads, hnext, hcut⟩ := h
  unfold recallBlocks
  rw [undoCuts_idle (by exact hop)]
  exact ⟨noStoreWait_uncut (by exact hstore), by simp [Shaper.uncut, hremainder], hop, hbox, hreads,
    nextLine?_release hnext _, hcut⟩

/-- R59: where no record and no box build waits for store room, none is checked. -/
theorem checkWaitingStore_noStoreWait (h : s.noStoreWait = true) : checkWaitingStore s = s := by
  simp only [State.noStoreWait, Bool.and_eq_true, List.all_eq_true, bne_iff_ne] at h
  obtain ⟨hrecords, hboxes⟩ := h
  have hr : s.shaper.records.find? (fun x => x.state == .storeWait) = none := by simpa using hrecords
  have hb : s.shaper.boxes.find? (fun x => x.state == .storeWait) = none := by simpa using hboxes
  simp [checkWaitingStore, hr, hb]

/-- R165: while nothing but frames waits, a first recall sends frames alone before the tally is settled. -/
theorem firstRecall_settles (h : OnlyFramesWait s) :
    ∃ v, Posts (recallBlocks r s) v ∧ firstRecall r s = settleTally v := by
  let u := recallBlocks r s
  have hu : OnlyFramesWait u := recallBlocks_onlyFramesWait r h
  let v := ((settleFreed u).shaper.readyFrom r.start).foldl publish (settleFreed u)
  have hv : Posts u v := (settleFreed_posts hu).trans (.foldl publish_posts _ _)
  exact ⟨v, hv, congrArg settleTally (checkWaitingStore_noStoreWait (hv.onlyFramesWait hu).store)⟩

/-- R137, R150, R165: the first recall of a line whose start item is a character, while nothing but frames waits. -/
theorem firstRecall_waits {it : Item} {code : Nat} (hw : s.working = true) (h : OnlyFramesWait s)
    (hit : s.window.item? r.start = some it) (hbody : it.body = .character code) (hp : r.params.isSome = true)
    (hopen : NoneOpen (s.tally.lines.takeWhile (fun x => x.number != r.number))) :
    OnlyFramesWait (firstRecall r s) ∧
      (firstRecall r s).tally = { s.tally.recalled r with
        lines := s.tally.lines.takeWhile (fun x => x.number != r.number) ++ [r.reopened.atStartGap]
        coverage := .first } ∧
      (firstRecall r s).placement = s.placement.release (fromLine r.number) := by
  obtain ⟨htally, hplacement, -, hwindow, hworking⟩ := recallBlocks_units r h.op
  obtain ⟨v, hv, hfirst⟩ := firstRecall_settles r h
  have hwait : OnlyFramesWait v := hv.onlyFramesWait (recallBlocks_onlyFramesWait r h)
  have hnumber : ∀ x ∈ s.tally.lines.takeWhile (fun x => x.number != r.number), x.number ≠ r.reopened.number :=
    fun x hx => bne_iff_ne.mp (List.mem_takeWhile_imp (p := fun x : LineRecord => x.number != r.number) hx)
  have hvtally : v.tally = s.tally.recalled r := hv.tally.trans htally
  have hsettle := settleTally_opens (s := v) (d := r.reopened) (hv.working.trans (hworking.trans hw)) (by rw [hvtally]; rfl)
    hopen hnumber rfl hp rfl rfl (by rw [hv.window, hwindow]; exact hit) hbody
  rw [hfirst]
  refine ⟨hsettle.onlyFramesWait (hwait.withTally _), ?_, hsettle.placement.trans (hv.placement.trans hplacement)⟩
  rw [hsettle.tally, State.withTally_tally, hvtally]

end

/-! ### The end of a kill (R116, R169) -/

theorem exec_killEnd {s : State} (hw : s.working = true) :
    exec .killEnd s = .next (finish (settleTally (endKillIfDue s))) := congrArg Host.Outcome.next (if_pos hw)

/-- R169: a kill whose PARA comes to be held ends there. -/
theorem endKillIfDue_ends {s : State} {k : KillInProgress} {p : CopyIndex} (hk : s.condition.kill = some k)
    (hpara : k.para = none) (hp : s.window.para? k.start = some p) : endKillIfDue s = endKill k p s := by
  simp [endKillIfDue, hk, hpara, hp]

/-- R116, R169: the record a kill that ends at `p` opens. -/
def KillInProgress.opens (k : KillInProgress) (p : CopyIndex) : LineRecord := LineRecord.opening k.next (p + 1) none []

theorem endKill_lines (k : KillInProgress) (p : CopyIndex) (s : State) :
    (endKill k p s).tally.lines = s.tally.lines ++ [k.opens p] :=
  (releasePendingNotices_settles _).lines.trans (openLine_lines ..)

/-- R169, R171: a kill that ends is no longer in progress, and its kill period goes on. -/
theorem endKill_condition (k : KillInProgress) (p : CopyIndex) (s : State) :
    (endKill k p s).condition.kill = none ∧ (endKill k p s).condition.killPeriod = s.condition.killPeriod := by
  have opened (u : State) : Steady u (releasePendingNotices (openLine (k.opens p) u)) :=
    (openLine_steady ..).trans (releasePendingNotices_settles _).steady
  exact ⟨(opened _).kill, (opened _).killPeriod⟩

/-! ### A line that opens where no copy is held yet (R116, R123) -/

/-- R12, R14: an index held once killed items have left was held before. -/
theorem purgeItems_holds {l : List Item} {i x : CopyIndex} {b : LineParams} (h : (purgeItems l i b).holds x = true) :
    (⟨i, l, b⟩ : Window).holds x = true := by
  induction l generalizing i b with
  | nil => exact h
  | cons it l ih =>
    unfold purgeItems at h
    split at h
    · have hrest := of_decide_eq_true (ih h)
      refine decide_eq_true ?_
      simp only [Window.count, distance, List.length_cons] at hrest ⊢
      bv_omega
    · exact h

theorem purge_holds {w : Window} {i : CopyIndex} (h : w.holds i = false) : w.purge.holds i = false :=
  eq_false_of_ne_true fun hp => absurd (purgeItems_holds hp) (by simp [h])

/-- R12, R14: an index ahead of the window stays ahead when killed items leave. -/
theorem purge_behind {w : Window} {i : CopyIndex} (h : w.holds i = false) (hb : w.behind i = false) :
    w.purge.behind i = false := by
  have hnext : w.purge.next = w.next := purgeItems_next ..
  unfold Window.behind at *
  rw [h] at hb
  rw [hnext, purge_holds h]
  exact hb

theorem OnlyFramesWait.purge {s : State} (h : OnlyFramesWait s) : OnlyFramesWait (s.withWindow s.window.purge) :=
  ⟨h.store, h.remainder, h.op, h.boxOp, h.reads, h.next,
    h.cutting.imp id fun hc => ⟨purge_holds hc.1, purge_behind hc.1 hc.2⟩⟩

section
variable {s : State} {r : LineRecord}

/-- R123: a scan whose point is not held stays where it is. -/
theorem scanned_ahead (hp : r.params = none) (hscan : r.scan = Scan.atStart r.start) (hh : s.window.holds r.start = false) :
    s.scanned r = (r, none) := by
  have hitems : s.window.itemsFrom r.start = [] := if_neg (by simp [hh])
  have hgov : s.window.governing? r.start = none := by simp [Window.governing?, hitems]
  have hfill : r.fill s.window = r := by simp [LineRecord.fill, hp, hgov]
  have hpoint : s.window.itemsFrom r.scan.point = [] := by rw [hscan]; exact hitems
  have hstop : r.scan.stop = .copy := by rw [hscan]; rfl
  simp only [State.scanned, hfill, hpoint, scanItems]
  rw [← hstop]

/-- R116, R123: while a line's start is not held, a round changes nothing. -/
theorem tallyRound_ahead (ho : s.tally.openLine? = some r) (hp : r.params = none) (hscan : r.scan = Scan.atStart r.start)
    (hh : s.window.holds r.start = false) : tallyRound s = s := by
  have hgap : checkGapMark s = s := by
    unfold checkGapMark
    simp [ho, hh]
  exact tallyRound_stands ho hgap (scanned_ahead hp hscan hh) (by simp [LineRecord.decidable, hp])

end

/-- R116, R156, R169: the units a kill's end leaves while nothing but frames waits. -/
theorem endKill_units {s : State} (h : OnlyFramesWait s) (k : KillInProgress) (p : CopyIndex) :
    OnlyFramesWait (endKill k p s) ∧
      (endKill k p s).tally = { s.tally with fence := some k.next, lines := s.tally.lines ++ [k.opens p] } ∧
      (endKill k p s).placement = { s.placement with unreported := [] } ∧
      (endKill k p s).window = s.window.purge ∧ (endKill k p s).working = s.working ∧
      (endKill k p s).condition.reports =
        (s.condition.reports ++ s.placement.unreported.map (fun x => (⟨.longHold, p + 1, x⟩ : Trap))).take 32 := by
  let named := nameUnreported (p + 1) { s with
    condition := { s.condition with kill := none }
    tally := { s.tally with fence := some k.next } }
  let opened := named.withTally { named.tally with lines := named.tally.lines ++ [k.opens p] }
  let released := releasePendingNotices (requeueHeldMuster opened)
  have hposts : Posts opened released := (requeueHeldMuster_posts _).trans (releasePendingNotices_posts _)
  have hend : endKill k p s = released.withWindow released.window.purge := rfl
  have hopened : OnlyFramesWait opened := ⟨h.store, h.remainder, h.op, h.boxOp, h.reads, h.next, h.cutting⟩
  rw [hend]
  refine ⟨(hposts.onlyFramesWait hopened).purge, hposts.tally, hposts.placement, congrArg Window.purge hposts.window,
    hposts.working, ?_⟩
  rw [State.withWindow_condition, hposts.condition]
  rfl

/-- R116, R169: a line that opens ahead of the copy held stands as it opens. -/
theorem settleTally_ahead {s : State} {front : List LineRecord} {r : LineRecord} (hw : s.working = true)
    (hl : s.tally.lines = front ++ [r]) (hopen : NoneOpen front) (hr : r.state = .opened) (hp : r.params = none)
    (hscan : r.scan = Scan.atStart r.start) (hh : s.window.holds r.start = false) :
    settleTally s = s.withTally { s.tally with coverage := .idle } := by
  have ho := openLine_behind hl hopen hr
  have hgap : s.tally.waitingGap = none := by
    simp [TallyUnit.waitingGap, ho, hscan, Scan.atStart]
  rw [settleTally_stands hw (tallyRound_ahead ho hp hscan hh)]
  simp [TallyUnit.timeCoverage, hgap]

/-! ### LONG HOLD while every line held is SENT (R156) -/

theorem exec_longHoldExpiry_allSent {s : State} (hw : s.working = true) (hrun : s.placement.longHold.running = true)
    (hsent : ∀ r ∈ s.tally.lines, r.state = .sent) (hroom : s.trapsHeld < 32) :
    exec .longHoldExpiry s = .next (finish (s.withPlacement { s.placement with
      longHold := ⟨false, true⟩, unreported := s.placement.unreported ++ [s.placement.holder] })) := by
  let t := s.withPlacement { s.placement with longHold := ⟨false, true⟩ }
  have hnone : t.tally.lines.find? (fun r => r.state != .sent) = none :=
    List.find?_eq_none.mpr fun r hr => by simp [hsent r hr]
  have hraise : raiseLongHold t = t.withPlacement { t.placement with
      unreported := t.placement.unreported ++ [t.placement.holder] } := by
    unfold raiseLongHold
    rw [hnone]
    exact if_pos hroom
  exact congrArg Host.Outcome.next ((if_pos ⟨hw, hrun⟩).trans (congrArg finish hraise))

/-! ### Recalls and ended kills -/

/-- R137, R164: the first recall of a line held at generation 0. -/
theorem exec_firstRecall {s : State} {f : Frame} {rest : List Frame} {m : RecallMsg} {r : LineRecord} (hw : s.working = true)
    (hr : s.port.rx = f :: rest) (hc : f.cls = .lineRecall) (hparse : RecallMsg.parse f.payload = some m) (hgen : m.gen = 0)
    (htaken : s.tally.isTaken m.line = false) (hline : s.tally.line? m.line = some r) (hstart : r.start = m.start)
    (hr0 : r.gen = 0) (hkill : s.condition.kill = none) :
    exec .recallFrame s = .next (finish (firstRecall r s.popped)) := by
  rw [exec_recallFrame hw hr hc hparse, matchRecall_first (s := s.popped) htaken hline hstart hgen hr0 hkill]

/-- R137, R164: whatever is outstanding, the recalled line is held at generation 1 and no copy moves. -/
theorem firstRecall_keepsLine (r : LineRecord) (s : State) :
    ∃ d, (finish (firstRecall r s)).tally.line? r.number = some d ∧ d.gen = 1 ∧ d.start = r.start ∧
      (finish (firstRecall r s)).window = s.window ∧ (finish (firstRecall r s)).decoder = s.decoder := by
  obtain ⟨d, hd, hsame⟩ := (firstRecall_hasLine r s).of_eq (finish_settles (firstRecall r s)).lines
  have hcopy := firstRecall_leavesCopy r s
  have hcalm := finish_calm (firstRecall r s)
  exact ⟨d, hd, hsame.gen, hsame.start, (window_of_calm hcalm).trans hcopy.window,
    (decoder_of_calm hcalm).trans hcopy.decoder⟩

/-- R169: whatever is outstanding, the line a kill opens is held. -/
theorem endKill_keepsLine {s : State} {k : KillInProgress} (h : ∀ x ∈ s.tally.lines, x.number ≠ k.next) (p : CopyIndex) :
    ∃ t d, t = finish (settleTally (endKill k p s)) ∧ t.condition.kill = none ∧
      t.condition.killPeriod = s.condition.killPeriod ∧ t.tally.line? k.next = some d ∧ SameLine (k.opens p) d ∧
      t.window = s.window.purge := by
  have hfin := finish_settles (settleTally (endKill k p s))
  have hsteady := (settleTally_steady (endKill k p s)).trans hfin.steady
  obtain ⟨hnokill, hperiod⟩ := endKill_condition k p s
  have hline : HasLine (k.opens p) (endKill k p s).tally.lines := (hasLine_behind h).of_eq (endKill_lines k p s)
  obtain ⟨d, hd, hsame⟩ := (settleTally_hasLine hline).of_eq hfin.lines
  have hcalm : (finish (settleTally (endKill k p s))).calm = (s.fixed, s.window.purge) := by
    rw [finish_calm, settleTally_calm, endKill_calm]
  exact ⟨_, d, rfl, hsteady.kill.trans hnokill, hsteady.killPeriod.trans hperiod, hd, hsame, congrArg Prod.snd hcalm⟩

/-- R116, R156, R169: a kill's end that opens a line ahead of the copy held, while nothing but frames waits. -/
theorem endKill_ahead {s : State} {k : KillInProgress} {p : CopyIndex} (hw : s.working = true) (h : OnlyFramesWait s)
    (hopen : NoneOpen s.tally.lines) (hahead : s.window.holds (p + 1) = false) :
    Posts ((endKill k p s).withTally { (endKill k p s).tally with coverage := .idle })
      (finish (settleTally (endKill k p s))) := by
  obtain ⟨hwait, -, -, hwindow, hworking, -⟩ := endKill_units h k p
  rw [settleTally_ahead (r := k.opens p) (hworking.trans hw) (endKill_lines k p s) hopen rfl rfl rfl
    (by rw [hwindow]; exact purge_holds hahead)]
  exact finish_posts (hwait.withTally _)

/-- Settles O48: a recalled line keeps its place whatever is outstanding, and with nothing outstanding waits for coverage; a
kill's end opens the next line, and LONG HOLD waits where no line is left to name. -/
theorem recallAndKillOpenLines : Obligations.RecallAndKillOpenLines := by
  unfold Obligations.RecallAndKillOpenLines
  refine ⟨?firstRecall, ?killEnd, ?longHold⟩
  case firstRecall =>
    intro s f rest m r hw hr hc hparse hgen htaken hline hstart hr0 hkill
    have hexec := exec_firstRecall hw hr hc hparse hgen htaken hline hstart hr0 hkill
    rw [← line?_number hline]
    refine ⟨?_, fun it code hq hit hbody hp hclosed => ?_⟩
    · obtain ⟨d, hline⟩ := firstRecall_keepsLine r s.popped
      exact ⟨_, d, hexec, hline⟩
    · have hopen : NoneOpen (s.tally.lines.takeWhile (fun x => x.number != r.number)) := by simpa [NoneOpen] using hclosed
      obtain ⟨hwait, htally, hplacement⟩ :=
        firstRecall_waits (s := s.popped) r hw (onlyFramesWait_of_quiet hq) hit hbody hp hopen
      have hposts := finish_posts hwait
      have hunit := hposts.tally.trans htally
      have hlines := congrArg TallyUnit.lines hunit
      exact ⟨_, r.reopened.atStartGap, hexec, openLine_behind hlines hopen rfl, hlines, rfl, rfl, rfl, rfl, rfl, rfl, rfl,
        rfl, rfl, rfl, rfl, rfl, rfl, congrArg TallyUnit.fence hunit, congrArg TallyUnit.coverage hunit,
        (congrArg TallyUnit.taken hunit).trans rfl,
        (congrArg PlacementUnit.lines (hposts.placement.trans hplacement)).trans (endFinishing_rest ..).1⟩
  case killEnd =>
    intro s k p hw hk hpara hp hlines
    have hexec : exec .killEnd s = .next (finish (settleTally (endKill k p s))) := by
      rw [exec_killEnd hw, endKillIfDue_ends hk hpara hp]
    have hopens : ∀ x ∈ s.tally.lines, x.number ≠ k.next ∧ x.state ≠ .opened := by simpa using hlines
    refine ⟨?_, fun hahead hn hs hop hbox => ?_⟩
    · obtain ⟨_, d, rfl, hnokill, hperiod, hd, hsame, hwindow⟩ := endKill_keepsLine (fun x hx => (hopens x hx).1) p
      exact ⟨_, d, hexec, hnokill, hperiod, hd, hsame.start, hsame.gen, hsame.inherited, hwindow⟩
    · have hwait := onlyFramesWait_of_nothingWaits hn hs hop hbox
      obtain ⟨-, htally, hplacement, -, -, hreports⟩ := endKill_units hwait k p
      have hposts := endKill_ahead (k := k) hw hwait (fun x hx => (hopens x hx).2) hahead
      have hunit : (finish (settleTally (endKill k p s))).tally = _ := hposts.tally
      refine ⟨_, hexec, ?_, ?_, ?_, ?_⟩
      · rw [hunit]
        exact endKill_lines k p s
      · rw [hunit, State.withTally_tally, htally]
      · rw [hposts.placement, State.withTally_placement, hplacement]
      · rw [hposts.condition]
        exact hreports
  case longHold =>
    intro s hw hn hs hop hbox hrun hsent hroom
    have hsent' : ∀ r ∈ s.tally.lines, r.state = .sent := by simpa using hsent
    rw [exec_longHoldExpiry_allSent hw hrun hsent' hroom]
    exact congrArg Host.Outcome.next (finish_nothingWaits (s := s.withPlacement _) hw hn hs hop hbox)

end Sys2Proof.Machine
end

-- ==== proofs: the long-hold timer ====
section
/-! The long-hold timer's end (R156): a LONG HOLD against the oldest line that is not SENT waits for that line's verdict or is
reported at once (R162). -/

namespace Sys2Proof.Machine

/-! ### Traps (R162) -/

/-- R162: a trap that no line in hand with its verdict carried holds waits in the report list. -/
theorem raiseTrap_waits {t : Trap} {s : State}
    (hlines : ∀ x ∈ s.tally.inHand, x.spans t.item = true → x.ownVerdict = false) (hbehind : s.window.behind t.item = false)
    (hroom : s.trapsHeld < reportLimit) :
    raiseTrap t s = s.withCondition { s.condition with reports := s.condition.reports ++ [t] } := by
  have hnone : s.tally.inHand.find? (fun x => x.spans t.item && x.ownVerdict) = none :=
    List.find?_eq_none.mpr fun x hx => by simpa using hlines x hx
  simp [raiseTrap, hnone, hbehind, hroom]

/-- R162: a trap that a line in hand with its verdict carried holds is reported against that line. -/
theorem raiseTrap_reported {t : Trap} {s : State} {x : LineRecord}
    (hline : s.tally.inHand.find? (fun x => x.spans t.item && x.ownVerdict) = some x) :
    raiseTrap t s = sendNotice (trapNotice t x.number) s := by
  simp [raiseTrap, hline]

/-- R163: LONG HOLD is a trap, and not a contributory one. -/
theorem raise_longHold {s : State} {item : CopyIndex} {ext : Option Nat} (hw : s.working = true) :
    raise (Cond.at .longHold item ext) s = raiseTrap ⟨.longHold, item, ext⟩ s := by
  simp [raise, hw, Cond.at, CondCode.cls, CondCode.contributory]

/-! ### The timer's end (R156) -/

/-- R156: the state once the timer has run out. -/
def State.longHoldOver (s : State) : State := s.withPlacement { s.placement with longHold := ⟨false, true⟩ }

theorem longHoldOver_quiet {s : State} (h : s.quiet = true) : s.longHoldOver.quiet = true := h

theorem exec_longHoldExpiry_stands {s : State} (hrun : s.placement.longHold.running = false) :
    exec .longHoldExpiry s = .next s :=
  congrArg Host.Outcome.next (if_neg (by simp [hrun]))

/-- R156: the timer's end raises the trap against the oldest line that is not SENT. -/
theorem exec_longHoldExpiry {s : State} {r : LineRecord} (hw : s.working = true)
    (hrun : s.placement.longHold.running = true) (hline : s.tally.lines.find? (fun x => x.state != .sent) = some r) :
    exec .longHoldExpiry s =
      .next (finish (raiseTrap ⟨.longHold, r.start, s.placement.holder⟩ s.longHoldOver)) := by
  have hraise : raiseLongHold s.longHoldOver = raiseTrap ⟨.longHold, r.start, s.placement.holder⟩ s.longHoldOver := by
    have hline' : s.longHoldOver.tally.lines.find? (fun x => x.state != .sent) = some r := hline
    rw [raiseLongHold, hline']
    exact raise_longHold hw
  exact congrArg Host.Outcome.next ((if_pos ⟨hw, hrun⟩).trans (congrArg finish hraise))

/-- R156, R162: the trap waits in the report list. -/
theorem exec_longHoldExpiry_waits {s : State} {r : LineRecord} (hw : s.working = true) (hq : s.quiet = true)
    (hrun : s.placement.longHold.running = true) (hline : s.tally.lines.find? (fun x => x.state != .sent) = some r)
    (hlines : ∀ x ∈ s.tally.inHand, x.spans r.start = true → x.ownVerdict = false)
    (hbehind : s.window.behind r.start = false) (hroom : s.condition.reports.length < 32) :
    exec .longHoldExpiry s = .next (s.longHoldOver.withCondition
      { s.condition with reports := s.condition.reports ++ [⟨.longHold, r.start, s.placement.holder⟩] }) := by
  obtain ⟨-, -, -, -, -, hwait, -, -, -, hunreported⟩ := quiet_parts hq
  have hheld : s.longHoldOver.trapsHeld < reportLimit := by
    have hnone : s.longHoldOver.placement.unreported = [] := hunreported
    rw [State.trapsHeld, hnone]
    exact hroom
  rw [exec_longHoldExpiry hw hrun hline, raiseTrap_waits (s := s.longHoldOver) (t := ⟨_, r.start, _⟩) hlines hbehind
    hheld]
  exact congrArg Host.Outcome.next (finish_quiet (quiet_congr (longHoldOver_quiet hq) rfl rfl rfl rfl rfl hwait))

/-- R156, R162: the trap is reported at once. -/
theorem exec_longHoldExpiry_reported {s : State} {r x : LineRecord} (hw : s.working = true) (hq : s.quiet = true)
    (hrun : s.placement.longHold.running = true) (hline : s.tally.lines.find? (fun x => x.state != .sent) = some r)
    (hheld : s.tally.inHand.find? (fun x => x.spans r.start && x.ownVerdict) = some x)
    (hroom : s.hasRoom .notice .notice false = true) :
    exec .longHoldExpiry s = .next (s.longHoldOver.withPort (s.port.enqueue (s.port.frame .notice
      (Notice.encode ⟨.longHold, x.number, r.start, r.start + 1, s.placement.holder, 0⟩)) false false)) := by
  obtain ⟨-, -, -, -, -, hwait, -⟩ := quiet_parts hq
  rw [exec_longHoldExpiry hw hrun hline, raiseTrap_reported (t := ⟨_, r.start, _⟩) (s := s.longHoldOver) hheld,
    sendNotice_enters (s := s.longHoldOver) hroom]
  exact congrArg Host.Outcome.next (finish_withPort (s := s.longHoldOver) (longHoldOver_quiet hq) hwait)

/-- Settles O53: the trap's item is the start of the oldest line not SENT, and whether a line in hand with its verdict carried
holds it decides between waiting and the NOTICE. -/
theorem longHoldRaised : Obligations.LongHoldRaised := by
  unfold Obligations.LongHoldRaised
  refine ⟨fun s r holder hw hq hrun hholder hline hspans hbehind hroom => ?_, fun s hw hq =>
    ⟨exec_longHoldExpiry_stands, fun r hrun hline =>
      ⟨exec_longHoldExpiry_waits hw hq hrun hline, fun x => exec_longHoldExpiry_reported hw hq hrun hline⟩⟩⟩
  have hnone : ∀ x ∈ s.tally.inHand, x.spans r.start = true → x.ownVerdict = false := fun x hx hspan => by
    have hfree := List.all_eq_true.mp hspans x hx
    simp [hspan] at hfree
  rw [exec_longHoldExpiry_waits hw hq hrun hline hnone hbehind hroom, hholder]
  rfl

end Sys2Proof.Machine
end

-- ==== proofs: PLACE frames built line after line ====
section
/-! PLACE frames built one line after another while the queue has room for all of them (R148, R155). -/

namespace Sys2Proof.Machine

/-! ### Lines with frames to build -/

/-- R148: a line with frames to build. -/
def PlaceState.due (p : PlaceState) : Bool := !p.toReplace && p.nextEntry < p.entryCount

theorem nextLine?_none_iff {u : PlacementUnit} : u.nextLine? = none ↔ ∀ p ∈ u.lines, p.due = false := by
  simp only [PlacementUnit.nextLine?, List.find?_eq_none, Bool.not_eq_true]
  rfl

/-- R148: the first line with frames to build comes next. -/
theorem nextLine?_front {u : PlacementUnit} {front back : List PlaceState} {p : PlaceState}
    (hlines : u.lines = front ++ p :: back) (hfront : ∀ q ∈ front, q.due = false) (hp : p.due = true) :
    u.nextLine? = some p := by
  have hnone : front.find? PlaceState.due = none := List.find?_eq_none.mpr fun q hq => by simp [hfront q hq]
  have hfind : u.lines.find? PlaceState.due = some p := by
    rw [hlines, List.find?_append, hnone, List.find?_cons_of_pos hp]
    rfl
  exact hfind

/-- A line's placement state is rewritten where no other line has its number. -/
theorem mapLine_front {u : PlacementUnit} {front back : List PlaceState} {p : PlaceState} (f : PlaceState → PlaceState)
    (hlines : u.lines = front ++ p :: back) (hother : ∀ q ∈ front ++ back, q.number ≠ p.number) :
    u.mapLine p.number f = { u with lines := front ++ f p :: back } := by
  have hstay (l : List PlaceState) (hl : ∀ q ∈ l, q.number ≠ p.number) :
      l.map (fun q => if q.number == p.number then f q else q) = l := by
    refine (List.map_congr_left fun q hq => ?_).trans (List.map_id l)
    simp [hl q hq]
  simp only [PlacementUnit.mapLine, hlines, List.map_append, List.map_cons, beq_self_eq_true, if_true,
    hstay front fun q hq => hother q (List.mem_append_left _ hq),
    hstay back fun q hq => hother q (List.mem_append_right _ hq)]

/-! ### Frames that enter one after another (R103) -/

/-- The queue once the frames have entered it, none of them held back. -/
def queued (frames : List Frame) (tx : List TxFrame) : List TxFrame :=
  frames.foldl (fun q x => txInsert ⟨x, false, 0, false, false, false⟩ q) tx

theorem queued_append (fs gs : List Frame) (tx : List TxFrame) : queued (fs ++ gs) tx = queued gs (queued fs tx) :=
  List.foldl_append ..

theorem queued_ordinary (fs : List Frame) (tx : List TxFrame) :
    (queued fs tx).countP (fun t => !t.urgent) = tx.countP (fun t => !t.urgent) + fs.length := by
  induction fs generalizing tx with
  | nil => rfl
  | cons x fs ih =>
    have hone : queued (x :: fs) tx = queued fs (txInsert ⟨x, false, 0, false, false, false⟩ tx) := rfl
    rw [hone, ih, (txInsert_perm _ _).countP_eq, List.countP_cons_of_pos rfl, List.length_cons]
    omega

/-- R148: the state once `frames` have been built and have entered the queue, which leaves the placement states `lines`. -/
def State.built (s : State) (frames : List Frame) (lines : List PlaceState) : State :=
  (s.withPort { s.port with tx := queued frames s.port.tx }).withPlacement { s.placement with lines := lines }

theorem built_nil (s : State) : s.built [] s.placement.lines = s := rfl

theorem built_built (s : State) (fs gs : List Frame) (l m : List PlaceState) :
    (s.built fs l).built gs m = s.built (fs ++ gs) m := by
  simp only [State.built, queued_append]
  rfl

/-- The placement unit builds, and the queue has the slots for `n` frames more. -/
structure State.BuildsFreely (s : State) (n : Nat) : Prop where
  working : s.working = true
  clear   : s.port.clearPending = false
  waiting : s.port.waiting = []
  held    : s.placement.held = false
  slots   : s.port.ordinaryUsed + n ≤ ordinarySlots

section
variable {s : State} {n : Nat}

theorem State.BuildsFreely.builds (h : s.BuildsFreely n) : s.builds = true := by
  simp [State.builds, h.working, h.held, BusPort.stalled, h.waiting]

theorem State.BuildsFreely.after (h : s.BuildsFreely n) {fs : List Frame} {m : Nat} (l : List PlaceState)
    (hn : n = fs.length + m) : (s.built fs l).BuildsFreely m where
  working := h.working
  clear := h.clear
  waiting := h.waiting
  held := h.held
  slots := by
    have hused : (s.built fs l).port.ordinaryUsed = s.port.ordinaryUsed + fs.length := queued_ordinary ..
    have := h.slots
    omega

/-- R103: a PLACE frame enters an ordinary slot, and is not held back. -/
theorem State.BuildsFreely.handOver (h : s.BuildsFreely (n + 1)) {f : Frame} (hf : f.cls = .place) :
    handOver .placement f s = s.withPort (s.port.enqueue f false false) := by
  have haccepts : s.accepts = true := by simp [State.accepts, h.working, h.clear]
  have hstalled : s.port.stalled .placement = false := by simp [BusPort.stalled, h.waiting]
  have hfree : s.port.ordinaryUsed < ordinarySlots := by have := h.slots; omega
  have hslot : s.port.slotFor f.cls = some false := by simp [BusPort.slotFor, hf, FrameClass.mayBeUrgent, hfree]
  have hmark : s.placement.entryMark f = false := by simp [PlacementUnit.entryMark, h.held]
  rw [handOver_enters haccepts hstalled hslot, hmark]

end

/-! ### Frames built (R148) -/

/-- R148: where no line has frames to build, none are built. -/
theorem pumpFrames_none (n : Nat) {s : State} (h : s.placement.nextLine? = none) : pumpFrames n s = s := by
  cases n with
  | zero => rfl
  | succ n => simp [pumpFrames, h]

/-- The placement state once the frame from its next entry on is built. -/
def PlaceState.advanced (p : PlaceState) : PlaceState :=
  { p with nextEntry := min p.entryCount (p.nextEntry + frameEntries) }

/-- R148: the next frame of the first line with frames to build enters the queue. -/
theorem pumpFrames_one {s : State} {front back : List PlaceState} {p : PlaceState} {n : Nat} (fuel : Nat)
    (h : s.BuildsFreely (n + 1)) (hlines : s.placement.lines = front ++ p :: back)
    (hfront : ∀ q ∈ front, q.due = false) (hp : p.due = true) (hother : ∀ q ∈ front ++ back, q.number ≠ p.number) :
    pumpFrames (fuel + 1) s = pumpFrames fuel (s.built [s.placeFrame p] (front ++ p.advanced :: back)) := by
  have hmap := mapLine_front PlaceState.advanced hlines hother
  let t := s.withPlacement { s.placement with lines := front ++ p.advanced :: back }
  have hsent : handOver .placement (s.placeFrame p) t = t.withPort (t.port.enqueue (s.placeFrame p) false false) :=
    State.BuildsFreely.handOver (s := t) ⟨h.working, h.clear, h.waiting, h.held, h.slots⟩ (BusPort.frame_cls ..)
  rw [pumpFrames, if_pos h.builds, nextLine?_front hlines hfront hp]
  exact congrArg (pumpFrames fuel) ((congrArg (fun u => handOver .placement (s.placeFrame p) (s.withPlacement u)) hmap).trans
    hsent)

/-- R148: the placement state with the frames before entry `e` built. -/
def PlaceState.builtTo (p : PlaceState) (e : Nat) : PlaceState := { p with nextEntry := min p.entryCount e }

/-- R148: the last `m` frames of a line's round, those from entry `6 * k` on, enter the queue one after another. -/
theorem pumpFrames_round {front back : List PlaceState} {p : PlaceState} (fuel : Nat) {m k n : Nat} {s : State}
    (hcount : k + m = (p.entryCount + 5) / 6) (h : s.BuildsFreely (m + n))
    (hlines : s.placement.lines = front ++ p.builtTo (6 * k) :: back) (hfront : ∀ q ∈ front, q.due = false)
    (hp : p.toReplace = false) (hother : ∀ q ∈ front ++ back, q.number ≠ p.number) :
    pumpFrames (m + fuel) s = pumpFrames fuel
      (s.built ((List.range' k m).map (fun j => s.placeFrame { p with nextEntry := 6 * j }))
        (front ++ p.builtTo p.entryCount :: back)) := by
  induction m generalizing k s with
  | zero =>
    have hdone : p.builtTo (6 * k) = p.builtTo p.entryCount := by
      simp only [PlaceState.builtTo, PlaceState.mk.injEq, true_and, and_true]
      omega
    rw [hdone] at hlines
    rw [← hlines, Nat.zero_add]
    rfl
  | succ m ih =>
    have hbefore : p.builtTo (6 * k) = { p with nextEntry := 6 * k } := by
      simp only [PlaceState.builtTo, PlaceState.mk.injEq, true_and, and_true]
      omega
    have hafter : (p.builtTo (6 * k)).advanced = p.builtTo (6 * (k + 1)) := by
      simp only [PlaceState.builtTo, PlaceState.advanced, frameEntries, PlaceState.mk.injEq, true_and, and_true]
      omega
    have hdue : (p.builtTo (6 * k)).due = true := by
      have hmore : 6 * k < p.entryCount := by omega
      simp [hbefore, PlaceState.due, hp, hmore]
    have hone := pumpFrames_one (m + fuel) (n := m + n) (by rwa [Nat.add_right_comm] at h) hlines hfront hdue hother
    rw [hafter] at hone
    rw [Nat.add_right_comm, hone, ih (by omega) (h.after _ (by simp; omega)) rfl, built_built, hbefore]
    rfl

/-! ### Lines replaced (R154, R155) -/

/-- R155: a line to replace is queued again from entry 0. -/
def PlaceState.again (p : PlaceState) : PlaceState :=
  if p.toReplace then { p with toReplace := false, nextEntry := 0 } else p

/-- R155: the placement state once the frames of a line to replace are built again. -/
def PlaceState.replaced (p : PlaceState) : PlaceState :=
  if p.toReplace then { p with toReplace := false, nextEntry := p.entryCount } else p

/-- R155: the frames of the lines to replace, line after line. -/
def State.replacements (s : State) (l : List PlaceState) : List Frame :=
  (l.filter (·.toReplace)).flatMap s.roundFrames

theorem replacements_cons (s : State) (p : PlaceState) (l : List PlaceState) :
    s.replacements (p :: l) = s.replacements [p] ++ s.replacements l := by
  cases h : p.toReplace <;> simp [State.replacements, h]

theorem replacements_one (s : State) (p : PlaceState) :
    s.replacements [p] = if p.toReplace then s.roundFrames p else [] := by
  cases h : p.toReplace <;> simp [State.replacements, h]

theorem again_number (p : PlaceState) : p.again.number = p.number := by unfold PlaceState.again; split <;> rfl

theorem again_entryCount (p : PlaceState) : p.again.entryCount = p.entryCount := by
  unfold PlaceState.again; split <;> rfl

theorem replaced_number (p : PlaceState) : p.replaced.number = p.number := by unfold PlaceState.replaced; split <;> rfl

/-- R155: no frame of a line is left to build once it is replaced. -/
theorem replaced_due {p : PlaceState} (h : p.due = false) : p.replaced.due = false := by
  unfold PlaceState.replaced
  split
  · simp [PlaceState.due]
  · exact h

/-- R155: once the lines to replace are built again, no frame is left to build. -/
theorem nextLine?_replaced {u : PlacementUnit} (h : u.nextLine? = none) :
    ({ u with lines := u.lines.map PlaceState.replaced } : PlacementUnit).nextLine? = none := by
  refine nextLine?_none_iff.mpr fun q hq => ?_
  obtain ⟨p, hp, rfl⟩ := List.mem_map.mp hq
  exact replaced_due (nextLine?_none_iff.mp h p hp)

/-- R148: a line has at least as many entries as frames. -/
theorem replacements_length_le (s : State) (l : List PlaceState) :
    (s.replacements l).length ≤ (l.map (·.entryCount)).sum := by
  induction l with
  | nil => exact Nat.le_refl 0
  | cons p l ih =>
    have hone : (s.replacements [p]).length ≤ p.entryCount := by
      rw [replacements_one]
      split
      · simp only [State.roundFrames, List.length_map, List.length_range]
        omega
      · exact Nat.zero_le _
    rw [replacements_cons, List.length_append, List.map_cons, List.sum_cons]
    omega

/-- R155: a line to replace is built again in whole; any other line stands. -/
theorem pumpFrames_line {front back : List PlaceState} {p : PlaceState} (fuel : Nat) {n : Nat} {s : State}
    (h : s.BuildsFreely ((s.replacements [p]).length + n)) (hlines : s.placement.lines = front ++ p.again :: back)
    (hfront : ∀ q ∈ front, q.due = false) (hother : ∀ q ∈ front ++ back, q.number ≠ p.number) :
    pumpFrames ((s.replacements [p]).length + fuel) s =
      pumpFrames fuel (s.built (s.replacements [p]) (front ++ p.replaced :: back)) := by
  rw [replacements_one] at h ⊢
  by_cases hp : p.toReplace = true
  · rw [if_pos hp] at h ⊢
    have hagain : p.again = ({ p with toReplace := false } : PlaceState).builtTo (6 * 0) := by
      simp [PlaceState.again, PlaceState.builtTo, hp]
    have hreplaced : p.replaced = ({ p with toReplace := false } : PlaceState).builtTo p.entryCount := by
      simp [PlaceState.replaced, PlaceState.builtTo, hp]
    have hlength : (s.roundFrames p).length = (p.entryCount + 5) / 6 := by simp [State.roundFrames]
    rw [hlength] at h ⊢
    rw [hagain] at hlines
    rw [pumpFrames_round (p := { p with toReplace := false }) fuel (Nat.zero_add _) h hlines hfront rfl hother, hreplaced,
      State.roundFrames, List.range_eq_range']
    rfl
  · have hagain : p.again = p := if_neg hp
    have hreplaced : p.replaced = p := if_neg hp
    rw [hagain] at hlines
    rw [if_neg hp, hreplaced, ← hlines, built_nil, List.length_nil, Nat.zero_add]

/-- R155: the lines to replace are built again one after another. -/
theorem pumpFrames_lines (fuel : Nat) {todo front : List PlaceState} {s : State}
    (h : s.BuildsFreely (s.replacements todo).length) (hlines : s.placement.lines = front ++ todo.map PlaceState.again)
    (hfront : ∀ q ∈ front, q.due = false) (htodo : ∀ q ∈ todo, q.due = false)
    (hnodup : ((front ++ todo).map (·.number)).Nodup) :
    pumpFrames ((s.replacements todo).length + fuel) s =
      pumpFrames fuel (s.built (s.replacements todo) (front ++ todo.map PlaceState.replaced)) := by
  induction todo generalizing front s with
  | nil =>
    rw [List.map_nil] at hlines
    rw [List.map_nil, ← hlines]
    exact congrArg (fun n => pumpFrames n s) (Nat.zero_add fuel)
  | cons p todo ih =>
    have hrest : ((front ++ [p.replaced] ++ todo).map (·.number)).Nodup := by simpa [replaced_number] using hnodup
    have hnumbers : (front ++ todo.map PlaceState.again).map (·.number) = front.map (·.number) ++ todo.map (·.number) := by
      simp [again_number]
    have hother : ∀ q ∈ front ++ todo.map PlaceState.again, q.number ≠ p.number := by
      rw [List.map_append, List.map_cons, List.nodup_middle, ← hnumbers] at hnodup
      exact fun q hq heq => (List.nodup_cons.mp hnodup).1 (List.mem_map.mpr ⟨q, hq, heq⟩)
    rw [replacements_cons, List.length_append] at h ⊢
    rw [Nat.add_assoc, pumpFrames_line _ h hlines hfront hother]
    have hnext := ih (front := front ++ [p.replaced])
      (s := s.built (s.replacements [p]) (front ++ p.replaced :: todo.map PlaceState.again)) (h.after _ rfl)
      (by simp [State.built])
      (fun q hq => by
        rcases List.mem_append.mp hq with hq | hq
        · exact hfront q hq
        · rw [List.mem_singleton.mp hq]
          exact replaced_due (htodo p List.mem_cons_self))
      (fun q hq => htodo q (List.mem_cons_of_mem _ hq)) hrest
    rw [built_built, List.append_assoc] at hnext
    exact hnext

/-- R155: with the slots for all of them, the frames of the lines to replace enter the queue. -/
theorem pump_replaceAgain {s : State} (h : s.BuildsFreely (s.replacements s.placement.lines).length)
    (hnext : s.placement.nextLine? = none) (hnodup : (s.placement.lines.map (·.number)).Nodup) :
    pump (s.withPlacement s.placement.replaceAgain) =
      s.built (s.replacements s.placement.lines) (s.placement.lines.map PlaceState.replaced) := by
  let t := s.withPlacement s.placement.replaceAgain
  have hdue := nextLine?_none_iff.mp hnext
  have hentries : (t.placement.lines.map (·.entryCount)).sum = (s.placement.lines.map (·.entryCount)).sum := by
    have hagain : t.placement.lines = s.placement.lines.map PlaceState.again := rfl
    simp [hagain, again_entryCount, Function.comp_def]
  obtain ⟨spare, hspare⟩ := Nat.exists_eq_add_of_le (replacements_length_le s s.placement.lines)
  have hbuilt := pumpFrames_lines (s := t) (front := []) (todo := s.placement.lines) spare
    ⟨h.working, h.clear, h.waiting, h.held, h.slots⟩ rfl (by simp) hdue hnodup
  have hdone : (t.built (t.replacements s.placement.lines) (s.placement.lines.map PlaceState.replaced)).placement.nextLine? =
      none := nextLine?_replaced hnext
  have hpump : pump t = pumpFrames ((t.replacements s.placement.lines).length + spare) t :=
    congrArg (fun n => pumpFrames n t) (hentries.trans hspare)
  rw [hpump, hbuilt, List.nil_append, pumpFrames_none _ hdone]
  rfl

end Sys2Proof.Machine
end

-- ==== proofs: hold and release ====
section
/-! HOLD and RELEASE under each hold response, and at a LISTENING station (R151 to R155). -/

namespace Sys2Proof.Machine

/-! ### HOLD and RELEASE at the head of the receive queue (R101, R151) -/

theorem popped_eq {s : State} {f : Frame} {rest : List Frame} (hr : s.port.rx = f :: rest) :
    s.popped = s.withPort { s.port with rx := rest } := by rw [State.popped, hr, List.tail_cons]

/-- R152 to R154: the placement unit held by station `n`, its hold response yet to be applied. -/
def PlacementUnit.heldBy (u : PlacementUnit) (n : Nat) : PlacementUnit :=
  { u with held := true, holder := some n, longHold := ⟨true, false⟩ }

/-- R152, R153, R155: the placement unit no longer held, the release yet to be applied. -/
def PlacementUnit.freed (u : PlacementUnit) : PlacementUnit :=
  { u with held := false, holder := none, longHold := ⟨false, false⟩ }

theorem handleHold_held {f : Frame} {s : State} (h : s.placement.held = true) : handleHold f s = s := if_pos h

theorem handleHold_working {f : Frame} {s : State} (hw : s.working = true) (h : s.placement.held = false) :
    handleHold f s = applyHold (s.withPlacement (s.placement.heldBy f.sender)) :=
  (if_neg (by simp [h])).trans (if_pos hw)

/-- R151: outside ACTIVE the hold is kept and nothing else is done. -/
theorem handleHold_idle {f : Frame} {s : State} (hw : s.working = false) (h : s.placement.held = false) :
    handleHold f s = s.withPlacement { s.placement with held := true, holder := some f.sender } :=
  (if_neg (by simp [h])).trans (if_neg (by simp [hw]))

theorem handleRelease_free {f : Frame} {s : State} (h : s.placement.held = false) : handleRelease f s = s :=
  if_neg (by simp [h])

theorem handleRelease_working {f : Frame} {s : State} (hw : s.working = true) (h : s.placement.held = true) :
    handleRelease f s = applyRelease (s.withPlacement s.placement.freed) :=
  (if_pos h).trans (if_pos hw)

/-- R151: outside ACTIVE the hold ends and nothing else is done. -/
theorem handleRelease_idle {f : Frame} {s : State} (hw : s.working = false) (h : s.placement.held = true) :
    handleRelease f s = s.withPlacement s.placement.freed :=
  (if_pos h).trans (if_neg (by simp [hw]))

section
variable {s t : State} {f : Frame} {rest : List Frame}

/-- R101: a HOLD whose handling leaves nothing outstanding. -/
theorem exec_holdFrame (ht : s.takes = true) (hr : s.port.rx = f :: rest) (hc : f.cls = .hold)
    (h : handleHold f s.popped = t) (hq : t.quiet = true) : exec .holdFrame s = .next t :=
  congrArg Host.Outcome.next ((takeHead_popped hr hc ht).trans (finish_of_eq h hq))

/-- R101: a RELEASE whose handling leaves nothing outstanding. -/
theorem exec_releaseFrame (ht : s.takes = true) (hr : s.port.rx = f :: rest) (hc : f.cls = .release)
    (h : handleRelease f s.popped = t) (hq : t.quiet = true) : exec .releaseFrame s = .next t :=
  congrArg Host.Outcome.next ((takeHead_popped hr hc ht).trans (finish_of_eq h hq))

/-- R151: a HOLD while held changes nothing. -/
theorem exec_holdFrame_held (ht : s.takes = true) (hq : s.popped.quiet = true) (hr : s.port.rx = f :: rest)
    (hc : f.cls = .hold) (h : s.placement.held = true) : exec .holdFrame s = .next s.popped :=
  exec_holdFrame ht hr hc (handleHold_held h) hq

/-- R151: a RELEASE while not held changes nothing. -/
theorem exec_releaseFrame_free (ht : s.takes = true) (hq : s.popped.quiet = true) (hr : s.port.rx = f :: rest)
    (hc : f.cls = .release) (h : s.placement.held = false) : exec .releaseFrame s = .next s.popped :=
  exec_releaseFrame ht hr hc (handleRelease_free h) hq

end

/-! ### What is left outstanding -/

/-- A quiet state stays quiet where the port's queue and what the placement unit says of a hold change. -/
theorem quiet_hold {s : State} {p : BusPort} {u : PlacementUnit} (h : s.quiet = true) (hwait : p.waiting = s.port.waiting)
    (hlines : u.lines = s.placement.lines) (hunreported : u.unreported = s.placement.unreported) :
    ((s.withPort p).withPlacement u).quiet = true := by
  obtain ⟨-, -, -, -, -, -, -, hnext, -⟩ := quiet_parts h
  have hnext' : u.nextLine? = none := by rwa [PlacementUnit.nextLine?, hlines]
  exact quiet_placement h rfl rfl rfl rfl hwait hnext' hunreported

/-! ### AT FRAME and AT LINE END (R152, R153) -/

theorem holdBack_eq (p : BusPort) (which : LineNumber → Bool) : p.holdBack which = { p with tx := p.tx.map (fun t =>
    if t.frame.cls = .place ∧ which t.frame.lineNumber = true then { t with heldBack := true } else t) } := by
  simp [BusPort.holdBack, isPlaceOf]

theorem applyHold_atFrame {s : State} (h : s.placement.response = .atFrame) :
    applyHold s = s.withPort (s.port.holdBack fun _ => true) := by simp [applyHold, h]

theorem applyHold_atLineEnd {s : State} (h : s.placement.response = .atLineEnd) :
    applyHold s = (s.withPlacement { s.placement with finishing := s.port.finishingLine }).withPort
      (s.port.holdBack fun n => s.port.finishingLine != some n) := by
  simp [applyHold, h]

theorem applyHold_replaceLine {s : State} (h : s.placement.response = .replaceLine) : applyHold s = replaceLines s := by
  simp [applyHold, h]

theorem applyRelease_atFrame {s : State} (h : s.placement.response = .atFrame) :
    applyRelease s = s.withPort s.port.unhold := by simp [applyRelease, h]

theorem applyRelease_atLineEnd {s : State} (h : s.placement.response = .atLineEnd) :
    applyRelease s = (s.withPlacement { s.placement with finishing := none }).withPort s.port.unhold := by
  simp [applyRelease, h]

theorem applyRelease_replaceLine {s : State} (h : s.placement.response = .replaceLine) :
    applyRelease s = pump (s.withPlacement s.placement.replaceAgain) := by simp [applyRelease, h]

/-- R153: where no frame waits, the finishing line is that of the first PLACE frame queued. -/
theorem finishingLine_queued {p : BusPort} (h : p.waiting = []) :
    p.finishingLine = (p.tx.find? (fun t => t.frame.cls == .place)).map (fun t => t.frame.lineNumber) := by
  unfold BusPort.finishingLine
  split
  next t ht => rw [ht]; rfl
  next hnone => rw [hnone, h]; rfl

section
variable {s : State} {f : Frame} {rest : List Frame}

/-- R152: under AT FRAME every queued PLACE frame is held back. -/
theorem exec_holdFrame_atFrame (hw : s.working = true) (hq : s.popped.quiet = true) (hr : s.port.rx = f :: rest)
    (hresponse : s.placement.response = .atFrame) (hc : f.cls = .hold) (hheld : s.placement.held = false) :
    exec .holdFrame s = .next ((s.popped.withPort (s.popped.port.holdBack fun _ => true)).withPlacement
      (s.placement.heldBy f.sender)) :=
  exec_holdFrame (takes_of_working hw) hr hc ((handleHold_working (s := s.popped) hw hheld).trans
    (applyHold_atFrame hresponse)) (quiet_hold hq rfl rfl rfl)

/-- R152: under AT FRAME the held-back marks are cleared. -/
theorem exec_releaseFrame_atFrame (hw : s.working = true) (hq : s.popped.quiet = true) (hr : s.port.rx = f :: rest)
    (hresponse : s.placement.response = .atFrame) (hc : f.cls = .release) (hheld : s.placement.held = true) :
    exec .releaseFrame s = .next ((s.popped.withPort s.popped.port.unhold).withPlacement s.placement.freed) :=
  exec_releaseFrame (takes_of_working hw) hr hc ((handleRelease_working (s := s.popped) hw hheld).trans
    (applyRelease_atFrame hresponse)) (quiet_hold hq rfl rfl rfl)

/-- R153: under AT LINE END every queued PLACE frame is held back but those of the finishing line. -/
theorem exec_holdFrame_atLineEnd (hw : s.working = true) (hq : s.popped.quiet = true) (hr : s.port.rx = f :: rest)
    (hresponse : s.placement.response = .atLineEnd) (hc : f.cls = .hold) (hheld : s.placement.held = false) :
    exec .holdFrame s = .next
      ((s.popped.withPort (s.popped.port.holdBack fun n => s.popped.port.finishingLine != some n)).withPlacement
        { s.placement.heldBy f.sender with finishing := s.popped.port.finishingLine }) :=
  exec_holdFrame (takes_of_working hw) hr hc ((handleHold_working (s := s.popped) hw hheld).trans
    (applyHold_atLineEnd hresponse)) (quiet_hold hq rfl rfl rfl)

/-- R153: under AT LINE END the held-back marks are cleared, and no line is finishing. -/
theorem exec_releaseFrame_atLineEnd (hw : s.working = true) (hq : s.popped.quiet = true) (hr : s.port.rx = f :: rest)
    (hresponse : s.placement.response = .atLineEnd) (hc : f.cls = .release) (hheld : s.placement.held = true) :
    exec .releaseFrame s = .next ((s.popped.withPort s.popped.port.unhold).withPlacement
      { s.placement.freed with finishing := none }) :=
  exec_releaseFrame (takes_of_working hw) hr hc ((handleRelease_working (s := s.popped) hw hheld).trans
    (applyRelease_atLineEnd hresponse)) (quiet_hold hq rfl rfl rfl)

end

/-! ### REPLACE LINE (R154, R155) -/

/-- R154: the tally unit once the placements of its DECIDED lines are withdrawn. -/
def TallyUnit.unplaced (t : TallyUnit) (u : PlacementUnit) : TallyUnit :=
  { t with lines := t.lines.map (fun r => if r.state = .decided then
    { r with placed := (u.line? r.number).any (fun p => p.entryCount == 0) } else r) }

/-- R154: the placement unit once the placements of the DECIDED lines are withdrawn. -/
def PlacementUnit.withdrawn (u : PlacementUnit) (t : TallyUnit) : PlacementUnit :=
  { u with lines := u.lines.map (fun p => if t.decided p.number then p.withdrawn else p) }

/-- R104, R154: where no frame waits, none enters the slots of the frames removed. -/
theorem replaceLines_noneWaits {s : State} (h : s.port.waiting = []) :
    replaceLines s = { s with port := s.port.remove (isPlaceOf s.tally.decided), placement := s.placement.withdrawn s.tally,
                              tally := s.tally.unplaced s.placement } := by
  have hwait : (s.port.remove (isPlaceOf s.tally.decided)).waiting = [] := by simp [BusPort.remove, h]
  exact settleSlots_none (s := { s with port := _, placement := _, tally := _ }) hwait

/-- R154: no frame of a line to replace is built. -/
theorem nextLine?_withdrawn {u : PlacementUnit} (h : u.nextLine? = none) (t : TallyUnit) :
    (u.withdrawn t).nextLine? = none := by
  refine nextLine?_none_iff.mpr fun q hq => ?_
  obtain ⟨p, hp, rfl⟩ := List.mem_map.mp hq
  split
  · rfl
  · exact nextLine?_none_iff.mp h p hp

/-- R154: where no frame waits, what is removed are the queued PLACE frames of DECIDED lines. -/
theorem remove_places {p : BusPort} (h : p.waiting = []) (which : LineNumber → Bool) :
    p.remove (isPlaceOf which) = { p with tx := p.tx.filterMap (fun x =>
      if x.frame.cls = .place ∧ which x.frame.lineNumber = true then
        (if x.inFlight then some { x with removed := true } else none)
      else some x) } := by
  simp [BusPort.remove, isPlaceOf, h]

section
variable {s : State} {f : Frame} {rest : List Frame}

/-- R154: under REPLACE LINE the queued PLACE frames and the placements of DECIDED lines are withdrawn. -/
theorem exec_holdFrame_replaceLine (hw : s.working = true) (hq : s.popped.quiet = true) (hr : s.port.rx = f :: rest)
    (hresponse : s.placement.response = .replaceLine) (hc : f.cls = .hold) (hheld : s.placement.held = false) :
    exec .holdFrame s = .next { s with port := s.popped.port.remove (isPlaceOf s.tally.decided),
                                       placement := (s.placement.heldBy f.sender).withdrawn s.tally,
                                       tally := s.tally.unplaced (s.placement.heldBy f.sender) } := by
  obtain ⟨-, -, -, -, -, hwait, -, hnext, -⟩ := quiet_parts hq
  let held := s.popped.withPlacement (s.placement.heldBy f.sender)
  have hreplace := (applyHold_replaceLine (s := held) hresponse).trans (replaceLines_noneWaits hwait)
  refine exec_holdFrame (takes_of_working hw) hr hc ((handleHold_working (s := s.popped) hw hheld).trans hreplace) ?_
  have hnone : (s.popped.port.remove (isPlaceOf s.tally.decided)).waiting = s.popped.port.waiting := by
    simp [BusPort.remove, hwait]
  exact quiet_placement hq rfl rfl rfl rfl hnone (nextLine?_withdrawn (u := s.placement.heldBy f.sender) hnext s.tally) rfl

/-- R155: under REPLACE LINE the lines to replace are built again, with the slots for all their frames. -/
theorem exec_releaseFrame_replaceLine (hw : s.working = true) (hq : s.popped.quiet = true) (hr : s.port.rx = f :: rest)
    (hresponse : s.placement.response = .replaceLine) (hc : f.cls = .release) (hheld : s.placement.held = true)
    (hnodup : (s.placement.lines.map (·.number)).Nodup) (hclear : s.port.clearPending = false)
    (hslots : s.port.ordinaryUsed + (s.replacements s.placement.lines).length ≤ ordinarySlots) :
    exec .releaseFrame s = .next ((s.popped.withPlacement s.placement.freed).built
      (s.replacements s.placement.lines) (s.placement.lines.map PlaceState.replaced)) := by
  obtain ⟨-, -, -, -, -, hwait, -, hnext, -⟩ := quiet_parts hq
  let free := s.popped.withPlacement s.placement.freed
  have hreplace := (applyRelease_replaceLine (s := free) hresponse).trans
    (pump_replaceAgain (s := free) ⟨hw, hclear, hwait, rfl, hslots⟩ hnext hnodup)
  refine exec_releaseFrame (takes_of_working hw) hr hc ((handleRelease_working (s := s.popped) hw hheld).trans hreplace) ?_
  exact quiet_placement hq rfl rfl rfl rfl rfl (nextLine?_replaced hnext) rfl

/-- R155: the one frame of a line of at most 6 entries. -/
theorem replacements_single {s : State} {p : PlaceState} (hreplace : p.toReplace = true) (hsome : 0 < p.entryCount)
    (hfew : p.entryCount ≤ 6) : s.replacements [p] = [s.placeFrame { p with nextEntry := 0 }] := by
  have hone : (p.entryCount + 5) / 6 = 1 := by omega
  rw [replacements_one, if_pos hreplace, State.roundFrames, hone]
  rfl

end

/-! ### Every response -/

/-- Settles O35: the response decides what a HOLD does to the queue and the placements, and what a RELEASE undoes. -/
theorem holdAndRelease : Obligations.HoldAndRelease := by
  unfold Obligations.HoldAndRelease
  refine ⟨fun s f rest hw hq hr hresponse => ?atFrame, fun s f rest hq hr => ⟨fun hw hresponse => ?atLineEnd,
    fun hw hresponse => ?replaceLine, fun hs => ?listening, fun hw => ?everyResponse⟩⟩
  all_goals have hpopped := popped_eq hr
  case atFrame =>
    have ht := takes_of_working hw
    refine ⟨exec_holdFrame_held ht hq hr, exec_releaseFrame_free ht hq hr, fun hc hheld => ?_, fun hc hheld => ?_⟩
    · rw [exec_holdFrame_atFrame hw hq hr hresponse hc hheld, holdBack_eq, hpopped]
      simp only [and_true]
      rfl
    · rw [exec_releaseFrame_atFrame hw hq hr hresponse hc hheld, hpopped]
      rfl
  case atLineEnd =>
    obtain ⟨-, -, -, -, -, hwait, -⟩ := quiet_parts hq
    refine ⟨fun hc hheld line hline => ?_, fun hc hheld => ?_⟩
    · have hfinishing : s.popped.port.finishingLine = line := (finishingLine_queued hwait).trans hline.symm
      rw [exec_holdFrame_atLineEnd hw hq hr hresponse hc hheld, hfinishing, holdBack_eq, hpopped]
      simp only [bne_iff_ne]
      rfl
    · rw [exec_releaseFrame_atLineEnd hw hq hr hresponse hc hheld, hpopped]
      rfl
  case replaceLine =>
    obtain ⟨-, -, -, -, -, hwait, -⟩ := quiet_parts hq
    refine ⟨fun hc hheld => ?_, fun p hc hheld hlines hreplace hsome hfew hroom => ?_⟩
    · rw [exec_holdFrame_replaceLine hw hq hr hresponse hc hheld, remove_places hwait, hpopped]
      rfl
    · simp only [State.hasRoom, State.accepts, Bool.and_eq_true, Bool.not_eq_true', beq_iff_eq] at hroom
      obtain ⟨⟨⟨-, hclear⟩, -⟩, hslot⟩ := hroom
      have hframes := replacements_single (s := s) hreplace hsome hfew
      have hexec := exec_releaseFrame_replaceLine hw hq hr hresponse hc hheld (by simp [hlines]) hclear
        (by rw [hlines, hframes]; exact slotFor_ordinary hslot)
      have hreplaced : p.replaced = { p with toReplace := false, nextEntry := p.entryCount } := if_pos hreplace
      rw [hexec, hlines, hframes, List.map_singleton, hreplaced, hpopped]
      rfl
  case listening =>
    have ht : s.takes = true := by simp [State.takes, hs]
    have hw : s.popped.working = false := by simp [State.working, hs]
    refine ⟨fun hc hheld => ?_, exec_holdFrame_held ht hq hr, fun hc hheld => ?_, exec_releaseFrame_free ht hq hr⟩
    · exact exec_holdFrame ht hr hc (handleHold_idle hw hheld) (quiet_hold hq rfl rfl rfl)
    · exact exec_releaseFrame ht hr hc (handleRelease_idle hw hheld) (quiet_hold hq rfl rfl rfl)
  case everyResponse =>
    have ht := takes_of_working hw
    refine ⟨exec_holdFrame_held ht hq hr, exec_releaseFrame_free ht hq hr,
      fun frames hc hheld hresponse hnodup hframes hclear hslots => ?_⟩
    subst hframes
    rw [exec_releaseFrame_replaceLine hw hq hr hresponse hc hheld hnodup hclear hslots, hpopped]
    rfl

end Sys2Proof.Machine
end

-- ==== proofs: held traps and pending abort notices ====
section
/-! What waits for the event that lets it be reported: the traps of the report list for their line's own verdict (R162), and the
pending abort notices for their PARA (R160). -/

namespace Sys2Proof.Machine

/-- R158: a NOTICE that the port has room for enters the queue of a quiet station, and sets nothing going. -/
theorem finish_sendNotice {n : Notice} {s : State} (hq : s.quiet = true) (hroom : s.hasRoom .notice .notice false = true) :
    finish (sendNotice n s) = s.withPort (s.port.enqueue (s.port.frame .notice n.encode) false false) := by
  obtain ⟨-, -, -, -, -, hwait, -⟩ := quiet_parts hq
  rw [sendNotice_enters hroom]
  exact finish_withPort hq hwait

/-! ### The report list (R162) -/

/-- R162: the only held trap is reported where the span asked about holds its item. -/
theorem reportTraps_one {n : LineNumber} {holds : CopyIndex → Bool} {s : State} {t : Trap}
    (hreports : s.condition.reports = [t]) (hholds : holds t.item = true) :
    reportTraps n holds s = sendNotice (trapNotice t n) (s.withCondition { s.condition with reports := [] }) := by
  simp [reportTraps, hreports, hholds]

/-- R162: where no line has been taken, the one line in hand is the only one whose traps are reported. -/
theorem reportDue_one {s : State} {r : LineRecord} (hline : s.tally.inHand = [r]) (htaken : s.tally.taken = none) :
    reportDue s = reportLine s r := by
  have hsettles : Settles s (reportLine s r) := .ite (reportTraps_settles ..) (.refl s)
  have hnone : (reportLine s r).tally.taken = none := hsettles.steady.taken.trans htaken
  simp only [reportDue, hline, List.foldl_cons, List.foldl_nil, hnone]

/-- Settles O47: the list is emptied, and the one NOTICE built from it enters the queue. -/
theorem trapsReported : Obligations.TrapsReported := by
  unfold Obligations.TrapsReported
  intro s r t hw hq hline hown htaken hreports hspans hroom
  let emptied := s.withCondition { s.condition with reports := [] }
  have hdue : reportDue s = sendNotice (trapNotice t r.number) emptied := by
    rw [reportDue_one hline htaken, reportLine, if_pos hown, reportTraps_one hreports hspans]
  have hexec : exec .trapReport s = .next (finish (reportDue s)) := congrArg Host.Outcome.next (if_pos hw)
  rw [hexec, hdue, finish_sendNotice (s := emptied) hq hroom]
  rfl

/-! ### Pending abort notices (R160) -/

/-- R160: an abort NOTICE whose PARA is held is handed over, to resume at the item after the PARA. -/
theorem sendAbortNotice_para {n : Notice} {a p : CopyIndex} {s : State} (hp : s.window.para? a = some p) :
    sendAbortNotice n a s = sendNotice { n with resume := p + 1 } s := by
  simp [sendAbortNotice, hp]

/-- R160: the only pending abort notice leaves the list when its PARA is held. -/
theorem releasePendingNotices_one {s : State} {n : PendingNotice} {p : CopyIndex} (hnotices : s.condition.notices = [n])
    (hp : s.window.para? n.after = some p) :
    releasePendingNotices s =
      sendNotice { n.notice with resume := p + 1 } (s.withCondition { s.condition with notices := [] }) := by
  simp [releasePendingNotices, hnotices, hp, sendAbortNotice_para]

/-- Settles O52: the list is emptied, and the notice enters the queue with its resume index filled in. -/
theorem pendingNoticeQueued : Obligations.PendingNoticeQueued := by
  unfold Obligations.PendingNoticeQueued
  intro s n p hw hq hnotices hp hroom
  let emptied := s.withCondition { s.condition with notices := [] }
  have hexec : exec .pendingAbortNotice s = .next (finish (releasePendingNotices s)) := congrArg Host.Outcome.next (if_pos hw)
  rw [hexec, releasePendingNotices_one hnotices hp, finish_sendNotice (s := emptied) hq hroom]
  rfl

end Sys2Proof.Machine
end

-- ==== proofs: the release of the reset line, and REFUSED ====
section
/-! The release of the reset line (R175 to R177), and what a station in REFUSED does at each command: all but the reset commands,
the pins, the cartridge and the frames on the bus leave it whole, and of these only a reset ends REFUSED. -/

namespace Sys2Proof.Machine

/-! ### Entry to PROFILING (R54, R177) -/

/-- The next read takes nothing of what the profile reader holds. -/
theorem startNext_profileWords (p : CartridgePort) : p.startNext.profileWords = p.profileWords := by
  unfold CartridgePort.startNext
  split <;> rfl

theorem enterProfiling_absent {s : State} (h : s.pins.cartridgePresent = false) : enterProfiling s = s.entering .refused :=
  if_neg (by simp [h])

/-- The cartridge port with the profile reader begun: it holds no word yet, and word 0 is requested (R177). -/
def CartridgePort.profileBegun (p : CartridgePort) : CartridgePort := { p with profileWords := some [] }.request .profile 0

theorem enterProfiling_present {s : State} (h : s.pins.cartridgePresent = true) :
    enterProfiling s = (s.withCartridge s.cartridge.profileBegun.startNext).entering .profiling := if_pos h

theorem profileBegun_profileWords (p : CartridgePort) : p.profileBegun.startNext.profileWords = some [] :=
  startNext_profileWords _

/-- R40, R177: at an idle port the read of word 0 starts at once. -/
theorem profileBegun_outstanding {p : CartridgePort} (ho : p.outstanding = none) (hw : p.waiting = []) :
    p.profileBegun.startNext.outstanding = some ⟨.profile, 0, false⟩ :=
  congrArg CartridgePort.outstanding (startNext_request (p := { p with profileWords := some [] }) ho hw)

theorem enterProfiling_pins (s : State) : (enterProfiling s).pins = s.pins := by
  unfold enterProfiling
  split <;> rfl

theorem enterProfiling_port (s : State) : (enterProfiling s).port = s.port := by
  unfold enterProfiling
  split <;> rfl

/-! ### The release (R175, R176) -/

/-- R176: the state with the reset line inactive and the straps sampled. -/
def State.strapped (s : State) (straps : BitVec 3) : State :=
  (s.withPins { s.pins with resetLine := false }).withPort { s.port with station := straps.toNat }

theorem exec_resetLineReleased {s : State} (straps : BitVec 3) (h : s.condition.state = .reset) :
    exec (.resetLineReleased straps) s = .next (enterProfiling (s.strapped straps)) := congrArg Host.Outcome.next (if_pos h)

theorem exec_resetLineReleased_other {s : State} (straps : BitVec 3) (h : s.condition.state ≠ .reset) :
    exec (.resetLineReleased straps) s = .next s := congrArg Host.Outcome.next (if_neg h)

/-- Settles O4: the cartridge-present pin says which of the two states a released station enters. -/
theorem resetLineReleased : Obligations.ResetLineReleased := by
  unfold Obligations.ResetLineReleased
  refine fun straps s => ⟨fun hreset => ?_, exec_resetLineReleased_other straps⟩
  refine ⟨_, exec_resetLineReleased straps hreset, congrArg BusPort.station (enterProfiling_port _), enterProfiling_pins _,
    fun habsent => ?_, fun hpresent => ?_⟩
  · rw [enterProfiling_absent (s := s.strapped straps) habsent]
    rfl
  · rw [enterProfiling_present (s := s.strapped straps) hpresent]
    exact ⟨rfl, profileBegun_profileWords _, profileBegun_outstanding⟩

/-! ### A station that does not work -/

theorem not_working_of_state {s : State} (h : s.condition.state ≠ .active) : s.working = false := by simp [State.working, h]

theorem finish_state (s : State) : (finish s).condition.state = s.condition.state := (finish_settles s).steady.state

/-- R108 to R110, R159: at a station that does not work a dropped frame causes nothing. -/
theorem dropFrame_idle {f : Frame} {s : State} (hw : s.working = false) : dropFrame f s = s := by
  have hmeasure (i : CopyIndex) : dropMeasure i s = s := by
    simp only [dropMeasure, raise_idle hw, ite_self]
    split
    · rfl
    · split <;> rfl
  have hline (n : LineNumber) (g : Nat) : dropLineFrame n g s = s := by
    simp only [dropLineFrame, raise_idle hw, ite_self]
    split <;> rfl
  have hmuster : holdMuster f s = s := if_neg (by simp [State.accepts, hw])
  have hrecall : linkLost f s = s := raise_idle hw
  simp only [dropFrame, hmeasure, hline, hmuster, hrecall]
  split <;> rfl

/-- R112: the end of an attempt ends a withdrawal in ACTIVE alone; elsewhere it leaves the station state. -/
theorem endAttempt_state {t : TxFrame} {o : AttemptOutcome} {s : State} (h : s.condition.state ≠ .active) :
    (endAttempt t o s).condition.state = s.condition.state := by
  have hends : s.endsWithdrawal t = false := by simp [State.endsWithdrawal, h]
  have hspoiled : (attemptSpoiled t s).condition.state = s.condition.state := by
    have hslots := (settleSlots_settles (s.withPort s.port.flightLeaves)).steady.state
    have hidle := not_working_of_state (ne_of_eq_of_ne hslots h)
    simp only [attemptSpoiled, hends, dropFrame_idle hidle, Bool.false_eq_true, if_false]
    split
    · rfl
    · split
      · rfl
      · exact hslots
  have hcarried : (attemptCarried t s).condition.state = s.condition.state := by
    simp only [attemptCarried, hends, Bool.false_eq_true, if_false]
    split <;> rfl
  cases o with
  | lost | broken => rfl
  | whole spoiled =>
    unfold endAttempt
    dsimp only
    split
    · exact hspoiled
    · exact hcarried

/-! ### REFUSED (R175) -/

/-- The commands that may find something to do in REFUSED, where no block does its work: power-on, the pins, the word of a read
that still runs, the end of an attempt that still runs, and a frame on the bus. -/
def actsInRefused : Instr → Bool
  | .powerOn | .resetLineAsserted | .cartridgePresentFall | .cartridgePresentRise | .cartridgeReadComplete _
  | .frameAttemptEnd _ | .frameReceived _ _ _ _ => true
  | _ => false

section
variable {s : State}

/-- R101, R180: a station in REFUSED hands no frame from its receive queue to a block. -/
theorem takeHead_refused (h : s.condition.state = .refused) (c : FrameClass) (act : Frame → State → State) :
    takeHead c act s = s := by
  have htakes : s.takes = false := by simp [State.takes, State.working, h]
  unfold takeHead
  split
  · exact if_neg (by simp [htakes])
  · rfl

theorem takesClear_refused (h : s.condition.state = .refused) : s.takesClear = false := by simp [State.takesClear, h]

/-- R54, R57, R101, R105: every other command leaves a station in REFUSED whole. -/
theorem exec_refused_idle (h : s.condition.state = .refused) {c : Instr} (hc : actsInRefused c = false) :
    exec c s = .next s := by
  have hw : s.working = false := not_working_of_state (by simp [h])
  have taken (k : FrameClass) (act : Frame → State → State) :
      Host.Outcome.next (takeHead k act s) = (.next s : Host.Outcome State Fault Refusal) :=
    congrArg Host.Outcome.next (takeHead_refused h k act)
  have idle {p : Prop} [Decidable p] {t : State} (hp : ¬p) :
      Host.Outcome.next (if p then t else s) = (.next s : Host.Outcome State Fault Refusal) :=
    congrArg Host.Outcome.next (if_neg hp)
  cases c with
  | powerOn | resetLineAsserted | cartridgePresentFall | cartridgePresentRise | cartridgeReadComplete | frameAttemptEnd
  | frameReceived => cases hc
  | resetLineReleased straps => exact exec_resetLineReleased_other straps (by simp [h])
  | frameAttemptStart => exact idle (by simp [State.offers, h])
  | clearFrame =>
    refine congrArg Host.Outcome.next ?_
    split
    · exact if_neg (by simp [takesClear_refused h])
    · rfl
  | copyFrame | measureFrame | verdictFrame | musterFrame | noticeFrame | takenFrame | holdFrame | releaseFrame | placeFrame
  | recallFrame | killFrame | unassignedClass => exact taken _ _
  | shapingStart => exact idle (by simp [State.canStartShaping, hw])
  | boxBuildStart => exact idle (by simp [State.canStartBox, hw])
  | verdictWaitExpiry =>
    refine congrArg Host.Outcome.next ?_
    split
    · exact if_neg (by simp [hw])
    · rfl
  | cuttingResumed | storeWaitGranted | shapingComplete | boxBuildComplete | pendingRemainderRecord | waitingFrameEnters
  | deferredDecision | deferredCopyGap | trapReport | killEnd | heldMusterRequeued | pendingAbortNotice
  | coverageTimerFirstEnd | coverageTimerSecondEnd | longHoldExpiry => exact idle (by simp [hw])

/-- R177, R178: the profile reader takes words in PROFILING alone, and the operations leave the station state. -/
theorem receiveWord_refused (h : s.condition.state = .refused) (o : OutstandingRead) (w : CartWord) :
    (receiveWord o w s).condition.state = .refused := by
  have hprofile : receiveProfileWord w s.readEnded = s.readEnded := by
    unfold receiveProfileWord
    split
    · rfl
    · exact if_pos (by simp [State.readEnded, h])
  unfold receiveWord
  dsimp only
  split
  · exact h
  · split
    · exact (congrArg (·.condition.state) hprofile).trans h
    · exact (resumeShaping_settles ..).steady.state.trans h
    · exact (resumeBox_settles _).steady.state.trans h

/-- R100, R102: a station in REFUSED at most queues a frame. -/
theorem receiveFrame_refused (h : s.condition.state = .refused) (word : ArbWord) (payload : List Byte) (check : BitVec 16)
    (spoiled : Bool) : (receiveFrame word payload check spoiled s).condition.state = .refused := by
  have hwithdrawing (f : Frame) (right : Bool) : (carriedWithdrawing f right s).condition = s.condition := by
    unfold carriedWithdrawing
    repeat' split
    all_goals rfl
  have hcarried (f : Frame) (right : Bool) : (carryFrame f right s).condition = s.condition := by
    simp only [carryFrame, h]
    split
    · exact hwithdrawing f right
    · rfl
  unfold receiveFrame
  dsimp only
  split
  · exact h
  · rw [hcarried]
    exact h

/-- R54: a station in REFUSED stays there when the cartridge-present pin falls. -/
theorem exec_cartridgePresentFall_refused {t : State} (h : s.condition.state = .refused)
    (he : exec .cartridgePresentFall s = .next t) : t.condition.state = .refused := by
  cases hpresent : s.pins.cartridgePresent with
  | false =>
    have hstays : exec .cartridgePresentFall s = .next s := congrArg Host.Outcome.next (if_neg (by simp [hpresent]))
    cases hstays.symm.trans he
    exact h
  | true =>
    rw [exec_cartridgePresentFall hpresent, if_neg (by simp [h])] at he
    cases he
    obtain ⟨-, -, -, -, -, hstays⟩ := cartridgeRemoval (s.withPins ⟨s.pins.resetLine, false⟩)
    exact (hstays (.inr h)).trans h

end

/-- Settles O7: the commands that act in REFUSED keep the station state, but for the two excepted. -/
theorem refusedLeftOnlyAtReset : Obligations.RefusedLeftOnlyAtReset := by
  unfold Obligations.RefusedLeftOnlyAtReset
  intro c s t h hpower hline he
  cases hacts : actsInRefused c with
  | false =>
    cases (exec_refused_idle h hacts).symm.trans he
    exact h
  | true =>
    have out {u : State} (hu : exec c s = .next u) (hs : u.condition.state = .refused) : t.condition.state = .refused := by
      cases hu.symm.trans he
      exact hs
    cases c with
    | powerOn => exact absurd rfl hpower
    | resetLineAsserted => exact absurd rfl hline
    | cartridgePresentFall => exact exec_cartridgePresentFall_refused h he
    | cartridgePresentRise => exact out rfl h
    | cartridgeReadComplete word =>
      refine out rfl ?_
      split
      · exact (finish_state _).trans (receiveWord_refused h ..)
      · exact h
    | frameAttemptEnd outcome =>
      refine out rfl ?_
      split
      · exact (finish_state _).trans ((endAttempt_state (by simp [h])).trans h)
      · exact h
    | frameReceived word payload check spoiled =>
      change execFrameReceived word payload check spoiled s = _ at he
      unfold execFrameReceived at he
      split at he
      · cases he
        exact receiveFrame_refused h ..
      · cases he
    | _ => cases hacts

end Sys2Proof.Machine
end


-- ==== proofs: frames read back as they were built ====
section
/-! Each payload this station builds, read back (12.2, R186): numbers in bytes, fields at their places, flags in a byte, and the
records that end a MEASURE or a PLACE. -/

namespace Sys2Proof.Machine

/-! ### Numbers in bytes -/

@[simp] theorem natBytes_length (n v : Nat) : (natBytes n v).length = n := by
  induction n generalizing v with
  | zero => rfl
  | succ n ih => simp [natBytes, ih]

theorem bytesNat_concat (bs : List Byte) (b : Byte) : bytesNat (bs ++ [b]) = bytesNat bs * 256 + b.toNat := by simp [bytesNat]

theorem bytesNat_natBytes (n v : Nat) : bytesNat (natBytes n v) = v % 256 ^ n := by
  induction n generalizing v with
  | zero => simp [natBytes, bytesNat, Nat.mod_one]
  | succ n ih =>
    rw [natBytes, bytesNat_concat, ih, BitVec.toNat_ofNat, Nat.pow_succ' (m := 256), Nat.mod_mul]
    omega

/-! ### Fields of a payload that begins with a number -/

theorem drop_natBytes_append {k i : Nat} (h : k ≤ i) (v : Nat) (q : List Byte) :
    (natBytes k v ++ q).drop i = q.drop (i - k) := by
  rw [List.drop_append, List.drop_eq_nil_of_le (by simpa using h), natBytes_length, List.nil_append]

theorem numField_natBytes_append (n v : Nat) (q : List Byte) : numField (natBytes n v ++ q) 0 n = v % 256 ^ n := by
  rw [numField, List.drop_zero, List.take_left' (natBytes_length n v), bytesNat_natBytes]

theorem numField_natBytes (n v : Nat) : numField (natBytes n v) 0 n = v % 256 ^ n := by
  simpa using numField_natBytes_append n v []

theorem numField_append_of_le {k i : Nat} (h : k ≤ i) (v n : Nat) (q : List Byte) :
    numField (natBytes k v ++ q) i n = numField q (i - k) n := by
  rw [numField, drop_natBytes_append h, numField]

theorem wordField_natBytes_append (v : BitVec 16) (q : List Byte) : wordField (natBytes 2 v.toNat ++ q) 0 = v := by
  have hfits : v.toNat % 256 ^ 2 = v.toNat := Nat.mod_eq_of_lt v.isLt
  rw [wordField, numField_natBytes_append, hfits, BitVec.ofNat_toNat, BitVec.setWidth_eq]

theorem wordField_append_of_le {k i : Nat} (h : k ≤ i) (v : Nat) (q : List Byte) :
    wordField (natBytes k v ++ q) i = wordField q (i - k) := by
  rw [wordField, numField_append_of_le h, wordField]

theorem numField_drop (p : List Byte) (i j n : Nat) : numField (p.drop i) j n = numField p (i + j) n := by
  rw [numField, numField, List.drop_drop]

/-! ### Flags -/

/-- A flag above the rest of its byte or word reads back. -/
theorem hasBit_flagBit_add {w n : Nat} (h : n < w) (b : Bool) : hasBit (flagBit b w + n) w = b := by
  cases b with
  | false => simp [hasBit, flagBit, Nat.div_eq_of_lt h]
  | true => simp [hasBit, flagBit, Nat.add_div_left n (Nat.zero_lt_of_lt h), Nat.div_eq_of_lt h]

/-- A flag of a greater weight does not show in the bit of weight `w`. -/
theorem hasBit_flagBit_above {w v : Nat} (hw : 0 < w) (hv : 2 * w ∣ v) (b : Bool) (n : Nat) :
    hasBit (flagBit b v + n) w = hasBit n w := by
  obtain ⟨k, rfl⟩ := hv
  cases b with
  | false => simp [flagBit]
  | true => simp [hasBit, flagBit, Nat.mul_comm 2 w, Nat.mul_assoc, Nat.mul_add_div hw, Nat.add_mod]

/-- A flag whose weight is a multiple of `k` does not show below `k`. -/
theorem flagBit_add_mod {k v : Nat} (hv : k ∣ v) (b : Bool) (n : Nat) : (flagBit b v + n) % k = n % k := by
  obtain ⟨j, rfl⟩ := hv
  cases b with
  | false => simp [flagBit]
  | true => simp [flagBit]

theorem flagBit_le (b : Bool) (w : Nat) : flagBit b w ≤ w := by
  cases b <;> simp [flagBit]

/-- The three flags of a VERDICT's last byte read back. -/
theorem verdict_flags (a b c : Bool) :
    let v := flagBit a 1 + flagBit b 2 + flagBit c 4
    v % 256 = v ∧ hasBit v 1 = a ∧ hasBit v 2 = b ∧ hasBit v 4 = c := by
  cases a <;> cases b <;> cases c <;> decide

/-! ### RECALL, KILL and VERDICT -/

theorem recall_parse_encode {m : RecallMsg} (hgen : m.gen ≤ 1) (hcause : m.cause < 256) :
    RecallMsg.parse m.encode = some m := by
  have hlen : m.encode.length = 6 := by simp [RecallMsg.encode]
  have hg : numField m.encode 2 1 = m.gen := by
    have hbyte : m.gen % 256 = m.gen := Nat.mod_eq_of_lt (by omega)
    simp [RecallMsg.encode, numField_append_of_le, numField_natBytes_append, hbyte]
  have hc : numField m.encode 5 1 = m.cause := by
    simp [RecallMsg.encode, numField_append_of_le, numField_natBytes, Nat.mod_eq_of_lt hcause]
  rw [RecallMsg.parse, if_neg (by omega), hg, hc]
  simp [RecallMsg.encode, wordField_append_of_le, wordField_natBytes_append]

theorem breakKind_code_lt (k : BreakKind) : k.code < 256 := by
  cases k <;> decide

theorem breakKind_ofCode_code (k : BreakKind) : BreakKind.ofCode k.code = some k := by
  cases k <;> rfl

theorem verdict_parse_encode {m : VerdictMsg} (hgen : m.gen ≤ 1) (hnatural : m.natural < 4294967296)
    (hset : m.setWidth < 4294967296) (hspaces : m.spaces < 256) (hpoints : m.points < 65536) (hglyphs : m.glyphs < 65536)
    (hleading : m.leading < 65536) : VerdictMsg.parse m.encode = some m := by
  obtain ⟨hbyte, hlast, hover, hloose⟩ := verdict_flags m.lastOfPara m.overset m.loose
  have hlen : m.encode.length = 24 := by simp [VerdictMsg.encode]
  have hg : numField m.encode 2 1 = m.gen := by
    have hgenByte : m.gen % 256 = m.gen := Nat.mod_eq_of_lt (by omega)
    simp [VerdictMsg.encode, numField_append_of_le, numField_natBytes_append, hgenByte]
  have hkind : numField m.encode 7 1 = m.kind.code := by
    have hkindByte : m.kind.code % 256 = m.kind.code := Nat.mod_eq_of_lt (breakKind_code_lt m.kind)
    simp [VerdictMsg.encode, numField_append_of_le, numField_natBytes_append, hkindByte]
  have hflags : numField m.encode 23 1 = flagBit m.lastOfPara 1 + flagBit m.overset 2 + flagBit m.loose 4 := by
    simp [VerdictMsg.encode, numField_append_of_le, numField_natBytes, hbyte]
  rw [VerdictMsg.parse, if_neg (by omega), hkind, breakKind_ofCode_code, hg, hflags, hlast, hover, hloose]
  simp [VerdictMsg.encode, wordField_append_of_le, wordField_natBytes_append, numField_append_of_le,
    numField_natBytes_append, Nat.mod_eq_of_lt hnatural, Nat.mod_eq_of_lt hset, Nat.mod_eq_of_lt hspaces,
    Nat.mod_eq_of_lt hpoints, Nat.mod_eq_of_lt hglyphs, Nat.mod_eq_of_lt hleading]

/-! ### The records that end a payload -/

/-- Records of `size` bytes read one after another are those written, where a payload from byte `at0` on is their bytes and each
record reads back from its own. -/
theorem records_read {α : Type} {encode : α → List Byte} {item : List Byte → α} {read : Nat → Nat → List α} {size : Nat}
    {p : List Byte} (hzero : ∀ i, read 0 i = []) (hsucc : ∀ n i, read (n + 1) i = item (p.drop i) :: read n (i + size))
    (hsize : ∀ x, (encode x).length = size) (xs : List α) (hitem : ∀ x ∈ xs, ∀ rest, item (encode x ++ rest) = x)
    {at0 : Nat} (hp : p.drop at0 = xs.flatMap encode) : read xs.length at0 = xs := by
  induction xs generalizing at0 with
  | nil => exact hzero at0
  | cons x xs ih =>
    obtain ⟨hx, hxs⟩ := List.forall_mem_cons.mp hitem
    rw [List.flatMap_cons] at hp
    have hrest : p.drop (at0 + size) = xs.flatMap encode := by
      rw [← List.drop_drop, hp, List.drop_left' (hsize x)]
    rw [List.length_cons, hsucc, hp, hx, ih hxs hrest]

theorem flatMap_length_of_length {α : Type} {encode : α → List Byte} {size : Nat} (hsize : ∀ x, (encode x).length = size)
    (xs : List α) : (xs.flatMap encode).length = size * xs.length := by
  simp [List.length_flatMap, hsize, Nat.mul_comm]

/-! ### MEASURE -/

theorem tallyOpp_encode_length (o : TallyOpp) : o.encode.length = 6 := by simp [TallyOpp.encode]

theorem parseOpp_drop (p : List Byte) (i : Nat) : parseOpp p i = parseOpp (p.drop i) 0 := by
  simp only [parseOpp, numField_drop, Nat.add_zero, Nat.zero_add]

/-- 12.2: the kind of an opportunity is a flag of weight 128, above its penalty points. -/
theorem oppKind_bit (k : OppKind) : k.bit = flagBit (k == .softHyphen) 128 := by
  cases k <;> rfl

theorem parseOpp_encode {o : TallyOpp} (hpoints : o.points < 16) (hoffset : o.offset < 65536) (hwidth : o.width < 16777216)
    (rest : List Byte) : parseOpp (o.encode ++ rest) 0 = o := by
  have hle := flagBit_le (o.kind == .softHyphen) 128
  have hbyte : (flagBit (o.kind == .softHyphen) 128 + o.points) % 256 = flagBit (o.kind == .softHyphen) 128 + o.points :=
    Nat.mod_eq_of_lt (by omega)
  have hlow : (flagBit (o.kind == .softHyphen) 128 + o.points) % 16 = o.points := by
    rw [flagBit_add_mod (by decide), Nat.mod_eq_of_lt hpoints]
  have hflag := hasBit_flagBit_add (w := 128) (hpoints.trans (by decide)) (o.kind == .softHyphen)
  have hkind : (if o.kind = .softHyphen then OppKind.softHyphen else .breakAfter) = o.kind := by
    cases o.kind <;> rfl
  simp [parseOpp, TallyOpp.encode, numField_append_of_le, numField_natBytes_append, oppKind_bit, hbyte, hlow, hflag, hkind,
    Nat.mod_eq_of_lt hoffset, Nat.mod_eq_of_lt hwidth]

/-- R186: every offset of a well-formed list lies below the item count. -/
theorem offset_lt_of_offsetsRise {count b : Nat} {os : List TallyOpp} (h : offsetsRise count b os = true) :
    ∀ o ∈ os, o.offset < count := by
  induction os generalizing b with
  | nil => exact nofun
  | cons o os ih =>
    simp only [offsetsRise, Bool.and_eq_true, decide_eq_true_eq] at h
    obtain ⟨⟨-, hlt⟩, hrest⟩ := h
    exact List.forall_mem_cons.mpr ⟨hlt, ih hrest⟩

theorem measure_wellFormed_iff (m : MeasureMsg) : m.wellFormed = true ↔
    m.level ≤ 15 ∧ m.count ≠ 0 ∧ m.opps.length ≤ 6 ∧ offsetsRise m.count 0 m.opps = true := by
  simp [MeasureMsg.wellFormed, and_assoc]

theorem measure_parse_encode {m : MeasureMsg} (hformed : m.wellFormed = true) (hcount : m.count < 65536)
    (hwidth : m.width < 16777216) (helong : m.elongWidth < 65536) (helongCount : m.elongCount < 16)
    (hopps : ∀ o ∈ m.opps, o.points < 16 ∧ o.width < 16777216) : MeasureMsg.parse m.encode = some m := by
  obtain ⟨hlevel, -, hfew, hrise⟩ := (measure_wellFormed_iff m).mp hformed
  have hlen : m.encode.length = 12 + 6 * m.opps.length := by
    simp only [MeasureMsg.encode, List.length_append, natBytes_length, flatMap_length_of_length tallyOpp_encode_length]
  have hn : numField m.encode 11 1 = m.opps.length := by
    have hbyte : m.opps.length % 256 = m.opps.length := Nat.mod_eq_of_lt (by omega)
    simp [MeasureMsg.encode, numField_append_of_le, numField_natBytes_append, hbyte]
  have hread : parseOpps m.encode m.opps.length 12 = m.opps := by
    refine records_read (item := (parseOpp · 0)) (fun _ => rfl) (fun _ i => by rw [parseOpps, parseOpp_drop])
      tallyOpp_encode_length m.opps (fun o ho rest => ?_) (by simp [MeasureMsg.encode, drop_natBytes_append])
    obtain ⟨hp, hw⟩ := hopps o ho
    exact parseOpp_encode hp ((offset_lt_of_offsetsRise hrise o ho).trans hcount) hw rest
  have hflags : numField m.encode 10 1 = flagBit m.continues 128 + m.elongCount := by
    have hle := flagBit_le m.continues 128
    have hbyte : (flagBit m.continues 128 + m.elongCount) % 256 = flagBit m.continues 128 + m.elongCount :=
      Nat.mod_eq_of_lt (by omega)
    simp [MeasureMsg.encode, numField_append_of_le, numField_natBytes_append, hbyte]
  have hlow : (flagBit m.continues 128 + m.elongCount) % 16 = m.elongCount := by
    rw [flagBit_add_mod (by decide), Nat.mod_eq_of_lt helongCount]
  have hlv : m.level % 256 = m.level := Nat.mod_eq_of_lt (by omega)
  rw [MeasureMsg.parse, if_neg (by omega), hn, hread, hflags, hlow, hasBit_flagBit_add (by omega)]
  have hsame : (⟨wordField m.encode 0, numField m.encode 2 2, numField m.encode 4 1, numField m.encode 5 3,
      numField m.encode 8 2, m.continues, m.elongCount, m.opps⟩ : MeasureMsg) = m := by
    simp [MeasureMsg.encode, wordField_natBytes_append, numField_append_of_le, numField_natBytes_append, hlv,
      Nat.mod_eq_of_lt hcount, Nat.mod_eq_of_lt hwidth, Nat.mod_eq_of_lt helong]
  dsimp only
  rw [hsame, if_pos hformed]

/-! ### PLACE -/

theorem placeEntry_encode_length (e : PlaceEntry) : e.encode.length = 8 := by simp [PlaceEntry.encode]

theorem parseEntry_drop (p : List Byte) (i : Nat) : parseEntry p i = parseEntry (p.drop i) 0 := by
  simp only [parseEntry, numField_drop, Nat.add_zero, Nat.zero_add]

/-- A number within 16 bits reads back from its two's complement. -/
theorem signed16_ofInt {y : Int} (hlo : -32768 ≤ y) (hhi : y ≤ 32767) : signed16 (BitVec.ofInt 16 y).toNat = y := by
  rw [signed16, BitVec.ofNat_toNat, BitVec.setWidth_eq]
  exact BitVec.toInt_ofInt_eq_self (by decide) hlo (by omega)

/-- The flags and the set size of a PLACE entry's last word read back. -/
theorem placeEntry_flags (a b c d : Bool) {n : Nat} (h : n < 512) :
    let v := flagBit a 32768 + flagBit b 16384 + flagBit c 8192 + flagBit d 4096 + n
    v % 65536 = v ∧ v % 512 = n ∧ hasBit v 32768 = a ∧ hasBit v 16384 = b ∧ hasBit v 8192 = c ∧ hasBit v 4096 = d := by
  have ha := flagBit_le a 32768
  have hb := flagBit_le b 16384
  have hc := flagBit_le c 8192
  have hd := flagBit_le d 4096
  simp only [Nat.add_assoc]
  refine ⟨by omega, ?_, hasBit_flagBit_add (by omega) a, ?_, ?_, ?_⟩
  · simp [flagBit_add_mod, Nat.mod_eq_of_lt h]
  · rw [hasBit_flagBit_above (by decide) (by decide), hasBit_flagBit_add (by omega)]
  · rw [hasBit_flagBit_above (by decide) (by decide), hasBit_flagBit_above (by decide) (by decide),
      hasBit_flagBit_add (by omega)]
  · rw [hasBit_flagBit_above (by decide) (by decide), hasBit_flagBit_above (by decide) (by decide),
      hasBit_flagBit_above (by decide) (by decide), hasBit_flagBit_add (by omega)]

theorem parseEntry_encode {e : PlaceEntry} (hglyph : e.glyph < 4096) (hslot : e.slot < 16) (hx : e.x < 16384)
    (hlo : -32768 ≤ e.y) (hhi : e.y ≤ 32767) (hset : e.setSize < 512) (rest : List Byte) :
    parseEntry (e.encode ++ rest) 0 = e := by
  obtain ⟨hword, hsize, hmark, hmissing, hpiece, hhyphen⟩ := placeEntry_flags e.mark e.missing e.piece e.hyphen hset
  have hg : (e.slot * 4096 + e.glyph) % 65536 % 4096 = e.glyph := by omega
  have hs : (e.slot * 4096 + e.glyph) % 65536 / 4096 = e.slot := by omega
  have hxw : e.x % 65536 % 16384 = e.x := by omega
  have hy : (BitVec.ofInt 16 e.y).toNat % 65536 = (BitVec.ofInt 16 e.y).toNat := Nat.mod_eq_of_lt (BitVec.isLt _)
  simp [parseEntry, PlaceEntry.encode, numField_append_of_le, numField_natBytes_append, hg, hs, hxw, hy,
    signed16_ofInt hlo hhi, hword, hsize, hmark, hmissing, hpiece, hhyphen, -BitVec.toNat_ofInt]

theorem place_parse_encode {m : PlaceMsg} (hgen : m.gen ≤ 1) (hfirst : m.first < 65536) (hsome : 1 ≤ m.entries.length)
    (hfew : m.entries.length ≤ 6) (hentries : ∀ e ∈ m.entries, e.glyph < 4096 ∧ e.slot < 16 ∧ e.x < 16384 ∧
      -32768 ≤ e.y ∧ e.y ≤ 32767 ∧ e.setSize < 512) : PlaceMsg.parse m.encode = some m := by
  have hlen : m.encode.length = 6 + 8 * m.entries.length := by
    simp only [PlaceMsg.encode, List.length_append, natBytes_length, flatMap_length_of_length placeEntry_encode_length]
  have hg : numField m.encode 2 1 = m.gen := by
    have hbyte : m.gen % 256 = m.gen := Nat.mod_eq_of_lt (by omega)
    simp [PlaceMsg.encode, numField_append_of_le, numField_natBytes_append, hbyte]
  have hflags : numField m.encode 5 1 = flagBit m.last 128 + m.entries.length := by
    have hle := flagBit_le m.last 128
    have hbyte : (flagBit m.last 128 + m.entries.length) % 256 = flagBit m.last 128 + m.entries.length :=
      Nat.mod_eq_of_lt (by omega)
    simp [PlaceMsg.encode, numField_append_of_le, numField_natBytes_append, hbyte]
  have hn : (flagBit m.last 128 + m.entries.length) % 8 = m.entries.length := by
    rw [flagBit_add_mod (by decide), Nat.mod_eq_of_lt (by omega)]
  have hread : parseEntries m.encode m.entries.length 6 = m.entries := by
    refine records_read (item := (parseEntry · 0)) (fun _ => rfl) (fun _ i => by rw [parseEntries, parseEntry_drop])
      placeEntry_encode_length m.entries (fun e he rest => ?_) (by simp [PlaceMsg.encode, drop_natBytes_append])
    obtain ⟨hglyph, hslot, hx, hlo, hhi, hset⟩ := hentries e he
    exact parseEntry_encode hglyph hslot hx hlo hhi hset rest
  rw [PlaceMsg.parse, hflags, hn, hg, if_neg (by omega), hread, hasBit_flagBit_add (by omega)]
  simp [PlaceMsg.encode, wordField_natBytes_append, numField_append_of_le, numField_natBytes_append,
    Nat.mod_eq_of_lt hfirst]

/-! ### NOTICE and MUSTER -/

theorem condCode_code_lt (c : CondCode) : c.code < 256 := by
  cases c <;> decide

/-- The condition of a code (9.2), if any has it. -/
def CondCode.ofCode (n : Nat) : Option CondCode :=
  [glyphMissing, overset, looseLine, embedOverflow, claimClash, longHold, stationLost, lateRecall, lateDivergence,
    cartridgeAddress, frameDropped, coverageTimeout, divergence, tallyFull, glyphStoreFull, copyGap, twinStation,
    cartridgeRemoved, cartridgeUnusable, linkLost, escalation].find? (·.code == n)

theorem condCode_ofCode_code (c : CondCode) : CondCode.ofCode c.code = some c := by
  cases c <;> rfl

theorem condCode_code_injective {c d : CondCode} (h : c.code = d.code) : c = d := by
  have hsame := congrArg CondCode.ofCode h
  rwa [condCode_ofCode_code, condCode_ofCode_code, Option.some_inj] at hsame

theorem condClass_code_lt (c : CondClass) : c.code < 256 := by
  cases c <;> decide

theorem category_lt (c : CondCode) : c.category < 256 := by
  cases c <;> decide

/-- The external-sender byte of a NOTICE: the flag, and the sender below it. -/
theorem notice_extByte {n : Notice} (h : ∀ e, n.ext = some e → e < 16) :
    numField n.encode 9 1 = flagBit n.ext.isSome 128 + n.ext.getD 0 := by
  obtain ⟨code, line, item, resume, ext, cause⟩ := n
  cases ext with
  | none => simp [Notice.encode, flagBit, numField_append_of_le, numField_natBytes_append]
  | some e =>
    have he : e < 16 := h e rfl
    have hbyte : (128 + e) % 256 = 128 + e := Nat.mod_eq_of_lt (by omega)
    simp [Notice.encode, flagBit, numField_append_of_le, numField_natBytes_append, hbyte]

theorem notice_encode_fields {n : Notice} (hext : ∀ e, n.ext = some e → e < 16) (hcause : n.cause < 256) :
    n.encode.length = 11 ∧ parseNotice n.encode = some n.code.code ∧ numField n.encode 0 1 = n.code.code ∧
    numField n.encode 1 1 = n.code.cls.code ∧ numField n.encode 2 1 = n.code.category ∧
    wordField n.encode 3 = n.line ∧ wordField n.encode 5 = n.item ∧ wordField n.encode 7 = n.resume ∧
    hasBit (numField n.encode 9 1) 128 = n.ext.isSome ∧ numField n.encode 9 1 % 16 = n.ext.getD 0 ∧
    numField n.encode 10 1 = n.cause := by
  have hsender : n.ext.getD 0 < 16 := by
    cases h : n.ext with
    | none => decide
    | some e => exact hext e h
  have hlen : n.encode.length = 11 := by simp [Notice.encode]
  have hcode : numField n.encode 0 1 = n.code.code := by
    simp [Notice.encode, numField_natBytes_append, Nat.mod_eq_of_lt (condCode_code_lt n.code)]
  have hcls : numField n.encode 1 1 = n.code.cls.code := by
    simp [Notice.encode, numField_append_of_le, numField_natBytes_append, Nat.mod_eq_of_lt (condClass_code_lt n.code.cls)]
  have hcat : numField n.encode 2 1 = n.code.category := by
    simp [Notice.encode, numField_append_of_le, numField_natBytes_append, Nat.mod_eq_of_lt (category_lt n.code)]
  have hcau : numField n.encode 10 1 = n.cause := by
    simp [Notice.encode, numField_append_of_le, numField_natBytes, Nat.mod_eq_of_lt hcause]
  refine ⟨hlen, ?_, hcode, hcls, hcat, ?_, ?_, ?_, ?_, ?_, hcau⟩
  · rw [parseNotice, if_neg (by omega), hcode]
  · simp [Notice.encode, wordField_append_of_le, wordField_natBytes_append]
  · simp [Notice.encode, wordField_append_of_le, wordField_natBytes_append]
  · simp [Notice.encode, wordField_append_of_le, wordField_natBytes_append]
  · rw [notice_extByte hext, hasBit_flagBit_add (by omega)]
  · rw [notice_extByte hext, flagBit_add_mod (by decide), Nat.mod_eq_of_lt hsender]

theorem musterPayload_fields {station claims : Nat} (fallback : Bool) (hstation : station < 256) (hclaims : claims < 256) :
    (musterPayload station claims fallback).length = 3 ∧ musterFormed (musterPayload station claims fallback) = true ∧
    numField (musterPayload station claims fallback) 0 1 = station ∧
    numField (musterPayload station claims fallback) 1 1 = claims ∧
    numField (musterPayload station claims fallback) 2 1 = (if fallback then 1 else 0) := by
  have hflag : flagBit fallback 1 % 256 = if fallback then 1 else 0 := by cases fallback <;> rfl
  simp [musterPayload, musterFormed, numField_append_of_le, numField_natBytes_append, numField_natBytes,
    Nat.mod_eq_of_lt hstation, Nat.mod_eq_of_lt hclaims, hflag]

/-- Settles O55: each payload the station builds reads back field by field. -/
theorem framesRoundTrip : Obligations.FramesRoundTrip := by
  unfold Obligations.FramesRoundTrip
  exact ⟨fun _ => recall_parse_encode, fun _ => verdict_parse_encode, fun _ => measure_parse_encode,
    fun _ => place_parse_encode, fun _ => notice_encode_fields, fun _ _ => condCode_code_injective,
    fun _ _ => musterPayload_fields⟩

end Sys2Proof.Machine
end

-- ==== proofs: a step and the queue of commands ====
section
/-! What a step does, by the queue of commands: idle on an empty one (log entry 3), else run the command at the front. -/

namespace Sys2Proof.Machine

@[simp] theorem State.withPending_withPending (s : State) (x y : List Instr) :
    (s.withPending x).withPending y = s.withPending y := rfl

theorem step_of_pending_nil {s : State} (h : s.pending = []) : step s = .next s := by
  rw [step, h]

theorem step_of_pending_cons {s : State} {c : Instr} {rest : List Instr} (h : s.pending = c :: rest) :
    step s = exec c (s.withPending rest) := by
  rw [step, h]

/-- Settles O1: the front command finds the queue's rest in place of the queue it stood in. -/
theorem stepRunsFrontCommand : Obligations.StepRunsFrontCommand := by
  unfold Obligations.StepRunsFrontCommand
  refine ⟨fun c rest s => ?_, fun s => step_of_pending_nil⟩
  rw [step_of_pending_cons (s.withPending_pending (c :: rest)), State.withPending_withPending]

end Sys2Proof.Machine
end
